-- ==== Sys2Proof/Word.lean ====
section
/-! DEFINITION. The word types of the FSDL frame codec core: bytes, 16-bit words and the 4-byte device address. -/

namespace Sys2Proof

/-- A byte: an unsigned 8-bit value (R10). -/
abbrev Byte := BitVec 8

/-- An unsigned 16-bit value, the spec's `u16` (R10). -/
abbrev Half := BitVec 16

/-- A device address, held as the four bytes `A[0] … A[3]` (R20): `a0` stands at frame index 2, `a3` at index 5. -/
structure DevAddr where
  a0 : Byte
  a1 : Byte
  a2 : Byte
  a3 : Byte
  deriving DecidableEq, Repr

/-- The four bytes in the order a frame carries them at indices 2..5 (R20, R43). -/
def DevAddr.bytes (a : DevAddr) : List Byte := [a.a0, a.a1, a.a2, a.a3]

end Sys2Proof
end

