-- ==== Sys2Proof/Config.lean ====
section
/-! DEFINITION. The parameters of a block instance (R3, R8, R232). They are properties of the instance: reset does
not change them and no operation sets them. Every value of `Variant` is a legal instance. -/

namespace Sys2Proof

/-- The two ControlLED variants of R8: `P_LED_FC_MAX` is 6, or 7 with the "colorful" mode (R131, D13). -/
inductive LedModes where
  | six
  | seven
  deriving DecidableEq, Repr, Inhabited

/-- The width in bytes of the DeleteChar Count field, `P_DEL_COUNT_WIDTH` (R8, D12). -/
inductive CountWidth where
  | one
  | two
  deriving DecidableEq, Repr, Inhabited

/-- The parameters of R8 that the spec does not fix. -/
structure Variant where
  ledModes : LedModes
  delCountWidth : CountWidth
  /-- By how much `P_RX_MAX` exceeds 25, the least value R8 allows. -/
  rxExtra : Nat
  deriving DecidableEq, Repr

/-- `P_LED_FC_MAX`, the largest legal ControlLED function code (R8, R131). -/
def Variant.ledFcMax (v : Variant) : Nat :=
  match v.ledModes with
  | .six => 6
  | .seven => 7

/-- `P_DEL_COUNT_WIDTH` in bytes (R8). -/
def Variant.delCountBytes (v : Variant) : Nat :=
  match v.delCountWidth with
  | .one => 1
  | .two => 2

/-- `P_RX_MAX`, the largest `LEN` the block accepts; at least 25 (R8, D14). -/
def Variant.rxMax (v : Variant) : Nat := 25 + v.rxExtra

/-- OPEN parameter `P_LED_FC_MAX` of the instance that `State.reset` describes: no value is chosen (R8, D13;
assumption log 3). -/
opaque Config.ledModes : LedModes

/-- OPEN parameter `P_RX_MAX` of the instance that `State.reset` describes, as its excess over 25: no value is
chosen (R8, D14; assumption log 3). -/
opaque Config.rxExtra : Nat

/-- The instance that `State.reset` describes: `P_DEL_COUNT_WIDTH` has the spec's default 2 (R8, D12), the other
two parameters are open. -/
def Config.variant : Variant :=
  { ledModes := Config.ledModes, delCountWidth := .two, rxExtra := Config.rxExtra }

end Sys2Proof
end

