-- ==== Sys2Proof/Syntax.lean ====
section
/-! DEFINITION. The twelve operations as `Instr`, and a request as a host presents it (R24, R60, R62). -/

namespace Sys2Proof

/-- An operation with its operands: one constructor per row of spec/opcode_table.json, in the table's order (R62).
A field's width is its type (R24); `COUNT` is held in 16 bits for both widths of its field (assumption log 7). -/
inductive Instr where
  /-- CHECKSUM, R101. -/
  | checksum (len : Nat) (rx : List Byte)
  /-- BUILD_DELETECHAR, R136. -/
  | buildDeleteChar (id : Half) (count : Half)
  /-- BUILD_EMPTY, R140. -/
  | buildEmpty
  /-- BUILD_READINDEXTABLE, R144. -/
  | buildReadIndexTable (page : Byte)
  /-- BUILD_CANCEL, R141. -/
  | buildCancel
  /-- BUILD_AUTOENROLL, R120. -/
  | buildAutoEnroll (id : Half) (times : Byte) (flags : Half)
  /-- BUILD_AUTOIDENTIFY, R122. -/
  | buildAutoIdentify (id : Half) (score : Byte) (flags : Half)
  /-- BUILD_SLEEP, R142. -/
  | buildSleep
  /-- BUILD_CONTROLLED, R130. -/
  | buildControlLed (fc scol ecol cyc : Byte)
  /-- VALIDATE, R150. -/
  | validate (len : Nat) (rx : List Byte)
  /-- PARSE_INDEX, R170. -/
  | parseIndex (len : Nat) (rx : List Byte)
  /-- SET_ADDR, R190. -/
  | setAddr (newAddr : DevAddr)
  deriving DecidableEq, Repr

/-- The operand fields that may accompany `REQSEL`, each present or missing (R24, R60, R72): named fields, not bit
positions. -/
structure OperandFields where
  id : Option Half := none
  times : Option Byte := none
  flags : Option Half := none
  score : Option Byte := none
  fc : Option Byte := none
  scol : Option Byte := none
  ecol : Option Byte := none
  cyc : Option Byte := none
  count : Option Half := none
  page : Option Byte := none
  newAddr : Option DevAddr := none
  len : Option Nat := none
  rx : Option (List Byte) := none
  deriving DecidableEq, Repr

/-- A request as a host presents it: the operation select and the operand fields given with it (R24, R60). -/
structure Request where
  reqsel : Half
  fields : OperandFields
  deriving DecidableEq, Repr

/-- The twelve operations without their operands (R2, R62), in the order of spec/opcode_table.json. -/
inductive Operation where
  | checksum | buildDeleteChar | buildEmpty | buildReadIndexTable | buildCancel | buildAutoEnroll
  | buildAutoIdentify | buildSleep | buildControlLed | validate | parseIndex | setAddr
  deriving DecidableEq, Repr

/-- The operation an instruction performs. -/
def Instr.operation : Instr → Operation
  | .checksum _ _ => .checksum
  | .buildDeleteChar _ _ => .buildDeleteChar
  | .buildEmpty => .buildEmpty
  | .buildReadIndexTable _ => .buildReadIndexTable
  | .buildCancel => .buildCancel
  | .buildAutoEnroll _ _ _ => .buildAutoEnroll
  | .buildAutoIdentify _ _ _ => .buildAutoIdentify
  | .buildSleep => .buildSleep
  | .buildControlLed _ _ _ _ => .buildControlLed
  | .validate _ _ => .validate
  | .parseIndex _ _ => .parseIndex
  | .setAddr _ => .setAddr

end Sys2Proof
end

