-- ==== Sys2Proof/WellFormed.lean ====
section
/-! DEFINITION. Which instructions a block instance can be asked to perform: the bounds that R24 puts on operands
and that no operand's type already carries. -/

namespace Sys2Proof

/-- `LEN` is within the receive capacity and `RX` holds at least `LEN` bytes (R24, R72). -/
def wellFormedRx (v : Variant) (len : Nat) (rx : List Byte) : Bool :=
  decide (len ≤ rx.length) && decide (len ≤ v.rxMax)

/-- `COUNT` fits its field: a u8 where `P_DEL_COUNT_WIDTH` = 1, a u16 where it is 2 (R24). -/
def wellFormedCount (v : Variant) (count : Half) : Bool :=
  match v.delCountWidth with
  | .one => decide (count.toNat < 256)
  | .two => true

/-- The operands of `i` are values a host can present to an instance with parameters `v` (R24, R72). -/
def wellFormed (v : Variant) : Instr → Bool
  | .checksum len rx => wellFormedRx v len rx
  | .buildDeleteChar _ count => wellFormedCount v count
  | .buildEmpty => true
  | .buildReadIndexTable _ => true
  | .buildCancel => true
  | .buildAutoEnroll _ _ _ => true
  | .buildAutoIdentify _ _ _ => true
  | .buildSleep => true
  | .buildControlLed _ _ _ _ => true
  | .validate len rx => wellFormedRx v len rx
  | .parseIndex len rx => wellFormedRx v len rx
  | .setAddr _ => true

end Sys2Proof
end

