-- ==== Sys2Proof/Decode.lean ====
section
/-! DEFINITION. The request decoder (R60–R62, R72), total on every request and rejecting by name; the encoder; and
the reading of a word of spec/opcode_table.json. -/

namespace Sys2Proof

/-- Why a request is refused (R72, R205): the block gives such a request no meaning, no response and no effect, and
the model keeps a mark of it. -/
inductive DecodeError where
  /-- `OPSEL` is not one of 0x01..0x05 (R72). -/
  | reservedOpsel
  /-- `OPSEL` is BUILD and `CMD` is no opcode of R62 (R72). -/
  | unknownCmd
  /-- `OPSEL` is not BUILD and `CMD` is not 0x00 (R72). -/
  | cmdOutsideBuild
  /-- An operand field the operation carries is missing (R72). -/
  | missingOperand
  /-- An operand field the operation does not carry is given, against R24's "exactly" (assumption log 6). -/
  | surplusOperand
  /-- `COUNT` does not fit its field (R24, assumption log 7). -/
  | countTooWide
  /-- `|RX| < LEN` (R72). -/
  | rxShorterThanLen
  /-- `LEN > P_RX_MAX` (R72). -/
  | lenOverCapacity
  deriving DecidableEq, Repr

/-- The `REQSEL` of each operation (R62). -/
def Operation.reqsel : Operation → Half
  | .checksum => 0x0100
  | .buildDeleteChar => 0x020C
  | .buildEmpty => 0x020D
  | .buildReadIndexTable => 0x021F
  | .buildCancel => 0x0230
  | .buildAutoEnroll => 0x0231
  | .buildAutoIdentify => 0x0232
  | .buildSleep => 0x0233
  | .buildControlLed => 0x023C
  | .validate => 0x0300
  | .parseIndex => 0x0400
  | .setAddr => 0x0500

/-- All twelve operations (R2). -/
def allOperations : List Operation :=
  [.checksum, .buildDeleteChar, .buildEmpty, .buildReadIndexTable, .buildCancel, .buildAutoEnroll,
   .buildAutoIdentify, .buildSleep, .buildControlLed, .validate, .parseIndex, .setAddr]

/-- The operation class `REQSEL[15:8]` (R60). -/
def opsel (reqsel : Half) : Byte := reqsel.extractLsb' 8 8

/-- The command opcode `REQSEL[7:0]` (R60). -/
def cmd (reqsel : Half) : Byte := reqsel.extractLsb' 0 8

/-- The operation a `REQSEL` selects; all 16 bits must match a row of R62, and any other value is refused for the
reason R72 gives. -/
def selectOperation (reqsel : Half) : Except DecodeError Operation :=
  match allOperations.find? (fun o => o.reqsel == reqsel) with
  | some o => .ok o
  | none =>
    if (opsel reqsel).toNat < 1 ∨ 5 < (opsel reqsel).toNat then .error .reservedOpsel
    else if opsel reqsel = 0x02 then .error .unknownCmd
    else .error .cmdOutsideBuild

/-- The instruction made of an operation and the fields it carries (R24), `none` where one of them is missing. -/
def takeOperands (o : Operation) (f : OperandFields) : Option Instr :=
  match o with
  | .checksum => f.len.bind fun len => f.rx.map fun rx => .checksum len rx
  | .buildDeleteChar => f.id.bind fun id => f.count.map fun count => .buildDeleteChar id count
  | .buildEmpty => some .buildEmpty
  | .buildReadIndexTable => f.page.map fun page => .buildReadIndexTable page
  | .buildCancel => some .buildCancel
  | .buildAutoEnroll =>
    f.id.bind fun id => f.times.bind fun times => f.flags.map fun flags => .buildAutoEnroll id times flags
  | .buildAutoIdentify =>
    f.id.bind fun id => f.score.bind fun score => f.flags.map fun flags => .buildAutoIdentify id score flags
  | .buildSleep => some .buildSleep
  | .buildControlLed =>
    f.fc.bind fun fc => f.scol.bind fun scol => f.ecol.bind fun ecol => f.cyc.map fun cyc =>
      .buildControlLed fc scol ecol cyc
  | .validate => f.len.bind fun len => f.rx.map fun rx => .validate len rx
  | .parseIndex => f.len.bind fun len => f.rx.map fun rx => .parseIndex len rx
  | .setAddr => f.newAddr.map fun a => .setAddr a

/-- The operand fields an instruction carries, and no other (R24, R62). -/
def Instr.fields : Instr → OperandFields
  | .checksum len rx => { len := some len, rx := some rx }
  | .buildDeleteChar id count => { id := some id, count := some count }
  | .buildEmpty => {}
  | .buildReadIndexTable page => { page := some page }
  | .buildCancel => {}
  | .buildAutoEnroll id times flags => { id := some id, times := some times, flags := some flags }
  | .buildAutoIdentify id score flags => { id := some id, score := some score, flags := some flags }
  | .buildSleep => {}
  | .buildControlLed fc scol ecol cyc =>
    { fc := some fc, scol := some scol, ecol := some ecol, cyc := some cyc }
  | .validate len rx => { len := some len, rx := some rx }
  | .parseIndex len rx => { len := some len, rx := some rx }
  | .setAddr a => { newAddr := some a }

/-- R72 on a receive buffer: refused where `|RX| < LEN` or `LEN > P_RX_MAX`. -/
def rxBounds (v : Variant) (len : Nat) (rx : List Byte) : Option DecodeError :=
  if rx.length < len then some .rxShorterThanLen
  else if v.rxMax < len then some .lenOverCapacity
  else none

/-- The bounds of R24 and R72 on the operands: the reason for which they refuse `i`, if any. -/
def operandBounds (v : Variant) : Instr → Option DecodeError
  | .checksum len rx => rxBounds v len rx
  | .buildDeleteChar _ count => if wellFormedCount v count then none else some .countTooWide
  | .buildEmpty => none
  | .buildReadIndexTable _ => none
  | .buildCancel => none
  | .buildAutoEnroll _ _ _ => none
  | .buildAutoIdentify _ _ _ => none
  | .buildSleep => none
  | .buildControlLed _ _ _ _ => none
  | .validate len rx => rxBounds v len rx
  | .parseIndex len rx => rxBounds v len rx
  | .setAddr _ => none

/-- The instruction a request asks an instance with parameters `v` for, or the reason for which it is refused
(R24, R62, R72). -/
def decode (v : Variant) (r : Request) : Except DecodeError Instr :=
  match selectOperation r.reqsel with
  | .error e => .error e
  | .ok o =>
    match takeOperands o r.fields with
    | none => .error .missingOperand
    | some i =>
      if r.fields = i.fields then
        match operandBounds v i with
        | some e => .error e
        | none => .ok i
      else .error .surplusOperand

/-- The request that asks for `i`: its `REQSEL` and exactly its operand fields (R24, R62). -/
def encode (i : Instr) : Request := { reqsel := i.operation.reqsel, fields := i.fields }

/-- The operand fields of an operation, every one of them zero (for `RX`: no byte). -/
def Operation.zeroFields : Operation → OperandFields
  | .checksum => { len := some 0, rx := some [] }
  | .buildDeleteChar => { id := some 0, count := some 0 }
  | .buildEmpty => {}
  | .buildReadIndexTable => { page := some 0 }
  | .buildCancel => {}
  | .buildAutoEnroll => { id := some 0, times := some 0, flags := some 0 }
  | .buildAutoIdentify => { id := some 0, score := some 0, flags := some 0 }
  | .buildSleep => {}
  | .buildControlLed => { fc := some 0, scol := some 0, ecol := some 0, cyc := some 0 }
  | .validate => { len := some 0, rx := some [] }
  | .parseIndex => { len := some 0, rx := some [] }
  | .setAddr => { newAddr := some ⟨0, 0, 0, 0⟩ }

/-- The request that a word of spec/opcode_table.json stands for: the low 16 of its `nbits` bits are `REQSEL`, and
the operand fields, which the table gives no bits (R60), are the operation's own with the value zero
(assumption log 11). -/
def requestOfTableWord (nbits w : Nat) : Request :=
  let reqsel := BitVec.ofNat 16 (w % 2 ^ nbits)
  { reqsel := reqsel
    fields := match selectOperation reqsel with
      | .ok o => o.zeroFields
      | .error _ => {} }

/-- The instruction the decoder reads from a word of spec/opcode_table.json. -/
def decodeTableWord (nbits w : Nat) : Option Instr :=
  match decode Config.variant (requestOfTableWord nbits w) with
  | .ok i => some i
  | .error _ => none

end Sys2Proof
end

