-- ==== Sys2Proof/Machine/State.lean ====
section
/-! DEFINITION. The machine's state, the responses it gives, the reasons a step can stop, and reset. -/

namespace Sys2Proof.Machine

/-- The status codes of R200. The reserved codes 9..15 are no value of this type; `Status.code` and
`Status.ofCode` give and read the 4-bit numbers. -/
inductive Status where
  | ok
  | frameTooShort
  | headerMismatch
  | addressMismatch
  | packetTypeMismatch
  | lengthMismatch
  | checksumMismatch
  | parameterOutOfRange
  | checksumInputTooShort
  deriving DecidableEq, Repr

/-- A response (R25): `STATUS` always, every other field present or absent (R26). -/
structure Response where
  status : Status
  /-- `WARN`, 1 bit (R23, R114). -/
  warn : Option Bool := none
  /-- `BAD_FIELD`, 3 bits (R113). -/
  badField : Option (BitVec 3) := none
  /-- `TXLEN` (R42). -/
  txLen : Option Nat := none
  /-- `TX`, lowest index first (R42). -/
  tx : Option (List Byte) := none
  /-- `CKSUM` (R101). -/
  cksum : Option Half := none
  /-- `SLOT_COUNT` (R170). -/
  slotCount : Option Nat := none
  /-- `SLOTS` in discovery order (R173). -/
  slots : Option (List Nat) := none
  deriving DecidableEq, Repr

/-- What reaches the block from outside, one at a time (R7, R48, R231). -/
inductive Event where
  /-- The host with this number issues a request (R24, R213). -/
  | request (host : Nat) (r : Request)
  /-- Reset, between requests (R230). -/
  | reset
  /-- Reset arrives while this host's request is being served (R231). -/
  | resetDuring (host : Nat) (r : Request)
  deriving DecidableEq, Repr

/-- A response on its way out: the host that issued the request, and the response (R203, R207). -/
structure Delivery where
  host : Nat
  response : Response
  deriving DecidableEq, Repr

/-- Defects of a model and of a reader of its responses (R215, R26): no well-formed request reaches one. All are
safe: the model stops where the rules give no value. -/
inductive Fault where
  /-- Raised by `memRead`: a read of `n` bytes at `addr` outside `RX[0..len-1]` (R41, R215). Safe. -/
  | rxReadOutOfBounds (addr n len : Nat)
  /-- Raised by `memWrite`: a write of `n` bytes at `addr` outside `TX[0..txLen-1]` (R42, R215). Safe. -/
  | txWriteOutOfBounds (addr n txLen : Nat)
  /-- Raised by `memWrite`: the value does not fit in `n` bytes (R14). Safe. -/
  | txValueTooWide (n value : Nat)
  /-- Raised by `memWrite`: an index is written a second time (R42, "exactly once"). Safe. -/
  | txWrittenTwice (addr n : Nat)
  /-- Raised by `txRead` and `txFinish`: an index of `TX` that nothing has written (R42). Safe. -/
  | txUnwritten
  /-- Raised by `ck`: the checksum of 8 bytes or fewer, which R100 leaves undefined. Safe. -/
  | checksumUndefined (len : Nat)
  /-- Raised by `Response.read…`, the host's reading of a response: the field is absent (R26). Safe. -/
  | absentResponseField
  /-- Raised by `Status.ofCode`, the host's reading of a status number: 9..15 are reserved (R200). Safe. -/
  | reservedStatus (code : BitVec 4)
  deriving DecidableEq, Repr

/-- Why a step can stop with no meaning given. A request that R72 refuses is none of these: it leaves a
`RefusalMark` in the state, and the run goes on (R205). -/
inductive Refusal where
  /-- Raised by `exec` for an instruction that has no meaning yet; no arm answers it. Safe. -/
  | notModelled (mnemonic : String)
  deriving DecidableEq, Repr

/-- The mark of a refused request (R205): the host that issued it, and the reason. That a mark holds these two is the
model's choice (assumption log 5). -/
structure RefusalMark where
  host : Nat
  why : DecodeError
  deriving DecidableEq, Repr

/-- The state. `devaddr` is the whole architectural state of the block (R20–R30); the other fields are the model's
own and stand for its interface (assumption log 1, 2, 3, 5). -/
structure State where
  /-- `DEVADDR` (R20). -/
  devaddr : DevAddr
  /-- The parameters of this instance (R8); no step changes them (R232). -/
  variant : Variant
  /-- The inputs still to be accepted, in the order of acceptance (R48). -/
  pending : List Event
  /-- The response of the operation being performed (R25); it exists only during one operation (R30). -/
  response : Option Response
  /-- The responses sent so far, oldest first. Nothing of the block reads it. -/
  delivered : List Delivery
  /-- The marks of the requests refused so far, oldest first, kept for the rest of the run (R205). Nothing of the
  block reads them. -/
  refusals : List RefusalMark
  deriving DecidableEq, Repr

/-- The value reset gives `DEVADDR`: `FF FF FF FF` (R230). -/
def resetAddr : DevAddr := ⟨0xFF, 0xFF, 0xFF, 0xFF⟩

/-- The block right after reset: idle, with the default address (R230, R232). -/
def State.reset : State :=
  { devaddr := resetAddr
    variant := Config.variant
    pending := []
    response := none
    delivered := []
    refusals := [] }

end Sys2Proof.Machine
end

