-- ==== Sys2Proof/Machine/Frame.lean ====
section
/-! DEFINITION. The constants of the frame grammar (R9) and the byte-order helpers (R12, R43). -/

namespace Sys2Proof.Machine

/-- `HDR`, frame bytes 0..1 (R9). -/
abbrev headerWord : Nat := 0xEF01

/-- `PT_CMD`, the packet type of a command frame (R9, R63). -/
abbrev packetCommand : Nat := 0x01

/-- `PT_DATA_MORE` (R9): no operation builds or accepts it (R68). -/
abbrev packetDataMore : Nat := 0x02

/-- `PT_RESP`, the packet type of a response frame (R9, R154). -/
abbrev packetResponse : Nat := 0x07

/-- `PT_DATA_LAST` (R9): no operation builds or accepts it (R68). -/
abbrev packetDataLast : Nat := 0x08

/-- `CK_START`, the first index the checksum covers (R9). -/
abbrev checksumStart : Nat := 6

/-- `CK_WIDTH`, the bytes of the checksum field (R9). -/
abbrev checksumWidth : Nat := 2

/-- `LEN_BIAS`, total length minus declared length (R9, R64). -/
abbrev lengthBias : Nat := 9

/-- `MIN_RESP_LEN` (R9, R151). -/
abbrev minResponseLength : Nat := 12

/-- The least length of a response that holds the whole bitmap before its checksum (R67, R171). -/
abbrev minIndexLength : Nat := 25

/-- `BITMAP_OFFSET` (R8, R67). -/
abbrev bitmapOffset : Nat := 10

/-- `BITMAP_BYTES` (R8, R67). -/
abbrev bitmapBytes : Nat := 13

/-- `ID_CAPACITY` (R8, D30). -/
abbrev idCapacity : Nat := 100

/-- The bytes of a command frame besides its payload: header 2, address 4, type 1, length 2, opcode 1, checksum 2
(R63). -/
abbrev frameOverhead : Nat := 12

/-- `hi8(v) = v[15:8]` (R12). -/
def hi8 (v : Half) : Byte := v.extractLsb' 8 8

/-- `lo8(v) = v[7:0]` (R12). -/
def lo8 (v : Half) : Byte := v.extractLsb' 0 8

/-- The big-endian value of a byte sequence: the first byte is the most significant (R12, R43). -/
def beValue (bs : List Byte) : Nat := bs.foldl (fun acc b => acc * 256 + b.toNat) 0

/-- The `n`-byte big-endian representation of `v`, most-significant byte first (R14, R43). -/
def beBytes : Nat → Nat → List Byte
  | 0, _ => []
  | n + 1, v => BitVec.ofNat 8 (v / 256 ^ n) :: beBytes n v

/-- The 32-bit view `BE32(A[0], A[1], A[2], A[3])` of a device address (R20). -/
def addrValue (a : DevAddr) : Nat := beValue a.bytes

/-- The 4-bit number of a status (R200). -/
def Status.code : Status → BitVec 4
  | .ok => 0
  | .frameTooShort => 1
  | .headerMismatch => 2
  | .addressMismatch => 3
  | .packetTypeMismatch => 4
  | .lengthMismatch => 5
  | .checksumMismatch => 6
  | .parameterOutOfRange => 7
  | .checksumInputTooShort => 8

/-- The status a 4-bit number stands for; the reserved numbers 9..15 are a fault (R200, I8). -/
def Status.ofCode (c : BitVec 4) : Except Fault Status :=
  match c.toNat with
  | 0 => .ok .ok
  | 1 => .ok .frameTooShort
  | 2 => .ok .headerMismatch
  | 3 => .ok .addressMismatch
  | 4 => .ok .packetTypeMismatch
  | 5 => .ok .lengthMismatch
  | 6 => .ok .checksumMismatch
  | 7 => .ok .parameterOutOfRange
  | 8 => .ok .checksumInputTooShort
  | _ => .error (.reservedStatus c)

end Sys2Proof.Machine
end

