-- ==== Sys2Proof/Machine/Flags.lean ====
section
/-! DEFINITION. The block's one flag, the warning bit `WARN` of a BUILD response (R23, R114, R132, R201). -/

namespace Sys2Proof.Machine

/-- `WARN` of BUILD_CONTROLLED: a colour was above 7, so that the mask changed it (R132). -/
def warnColours (scol ecol : Byte) : Bool := decide (7 < scol.toNat) || decide (7 < ecol.toNat)

/-- `WARN` of every other successful BUILD (R114). -/
def warnNone : Bool := false

end Sys2Proof.Machine
end

