-- ==== Sys2Proof/Machine/Operands.lean ====
section
/-! DEFINITION. How operands become payload bytes (R65, R70): every operand is unsigned, a u16 is placed as `hi8`
then `lo8`, a u8 unchanged, a colour as its low 3 bits. -/

namespace Sys2Proof.Machine

/-- A u16 operand: `hi8` then `lo8` (R70). -/
def placeHalf (v : Half) : List Byte := [hi8 v, lo8 v]

/-- A colour operand: its low 3 bits (R70, R132). -/
def maskColour (v : Byte) : Byte := v &&& 0x07

/-- `COUNT` in 2 bytes or in 1, by `P_DEL_COUNT_WIDTH` (R65, R70). -/
def placeCount (v : Variant) (count : Half) : List Byte :=
  match v.delCountWidth with
  | .two => placeHalf count
  | .one => [lo8 count]

/-- AutoEnroll (0x31): `ID`, `TIMES`, `FLAGS` (R65, C2). -/
def payloadAutoEnroll (id : Half) (times : Byte) (flags : Half) : List Byte :=
  placeHalf id ++ [times] ++ placeHalf flags

/-- AutoIdentify (0x32): `ID`, `SCORE`, `FLAGS` (R65, C3). -/
def payloadAutoIdentify (id : Half) (score : Byte) (flags : Half) : List Byte :=
  placeHalf id ++ [score] ++ placeHalf flags

/-- ControlLED (0x3C): `FC`, both colours masked, `CYC` (R65). -/
def payloadControlLed (fc scol ecol cyc : Byte) : List Byte := [fc, maskColour scol, maskColour ecol, cyc]

/-- DeleteChar (0x0C): `ID`, `COUNT` (R65, C4). -/
def payloadDeleteChar (v : Variant) (id count : Half) : List Byte := placeHalf id ++ placeCount v count

/-- ReadIndexTable (0x1F): `PAGE` (R65). -/
def payloadReadIndexTable (page : Byte) : List Byte := [page]

end Sys2Proof.Machine
end

