-- ==== Sys2Proof/Machine/Ops.lean ====
section
/-! DEFINITION. The shared operations of the pseudocode (R14): reading `RX`, writing `TX`, the checksum, frame
assembly, raising a status, responding, and what happens at a reset. -/

namespace Sys2Proof.Machine

/-! ## Updates of the state -/

/-- The operation being performed has this response (R25). -/
def State.withResponse (s : State) (r : Response) : State := { s with response := some r }

/-- `DEVADDR <- a`, all four bytes at once (R14, R49). -/
def State.withAddr (s : State) (a : DevAddr) : State := { s with devaddr := a }

/-- These inputs remain to be accepted (R48). -/
def State.withPending (s : State) (es : List Event) : State := { s with pending := es }

/-- The response has gone to its host, and none remains in the block (R27, R28, R203). -/
def State.withDelivery (s : State) (host : Nat) (r : Response) : State :=
  { s with response := none, delivered := s.delivered ++ [{ host := host, response := r }] }

/-- One mark of a refused request more (R205). -/
def State.withRefusal (s : State) (host : Nat) (why : DecodeError) : State :=
  { s with refusals := s.refusals ++ [{ host := host, why := why }] }

/-! ## Buffers -/

/-- `MemRead(addr, n)`: the big-endian value of `RX[addr..addr+n-1]`, defined only where `addr + n <= LEN`; any
other read is a fault (R41, R215). -/
def memRead (rx : List Byte) (len addr n : Nat) : Except Fault Nat :=
  if addr + n ≤ len ∧ addr + n ≤ rx.length then .ok (beValue ((rx.drop addr).take n))
  else .error (.rxReadOutOfBounds addr n len)

/-- `TX` while a BUILD fills it: an index holds `none` until it is written (R42). -/
abbrev TxBuffer := List (Option Byte)

/-- A transmit buffer "of the exact computed length", nothing written (R42). -/
def txAlloc (txLen : Nat) : TxBuffer := List.replicate txLen none

/-- `MemWrite(addr, n, v)`: the `n`-byte big-endian representation of `v` into `TX[addr..addr+n-1]` (R14, R42). A
write outside `TX`, of a value too wide, or to an index already written is a fault (R215, R42). -/
def memWrite (tx : TxBuffer) (addr n v : Nat) : Except Fault TxBuffer :=
  if tx.length < addr + n then .error (.txWriteOutOfBounds addr n tx.length)
  else if 256 ^ n ≤ v then .error (.txValueTooWide n v)
  else if ((tx.drop addr).take n).any Option.isSome then .error (.txWrittenTwice addr n)
  else .ok (tx.take addr ++ (beBytes n v).map some ++ tx.drop (addr + n))

/-- The byte at an index of `TX` that has been written. -/
def txRead (tx : TxBuffer) (i : Nat) : Except Fault Nat :=
  match tx[i]? with
  | some (some b) => .ok b.toNat
  | _ => .error .txUnwritten

/-- The finished frame: every index of `TX` has been written (R42). -/
def txFinish : TxBuffer → Except Fault (List Byte)
  | [] => .ok []
  | none :: _ => .error .txUnwritten
  | some b :: rest =>
    match txFinish rest with
    | .ok bs => .ok (b :: bs)
    | .error f => .error f

/-! ## Checksum -/

/-- The loop of R101: add `count` bytes from index `i` on to `s`. -/
def ckLoop (read : Nat → Except Fault Nat) : (count i s : Nat) → Except Fault Nat
  | 0, _, s => .ok s
  | count + 1, i, s =>
    match read i with
    | .ok b => ckLoop read count (i + 1) (s + b)
    | .error f => .error f

/-- `CK(B, L)`: the sum of the `L - 8` bytes at indices 6..`L-3`, modulo 2^16 (R100, R103); undefined, hence a
fault, for `L <= 8`. Builder, validator and CHECKSUM use this one function. -/
def ck (read : Nat → Except Fault Nat) (len : Nat) : Except Fault Half :=
  if len ≤ 8 then .error (.checksumUndefined len)
  else
    match ckLoop read (len - 8) checksumStart 0 with
    | .ok s => .ok (BitVec.ofNat 16 s)
    | .error f => .error f

/-- `CK(RX, LEN)`. -/
def ckRx (rx : List Byte) (len : Nat) : Except Fault Half := ck (fun i => memRead rx len i 1) len

/-! ## Responses -/

/-- `raise <Status>()`: the operation ends with this status and nothing else (R202, R203). It stands where another
machine takes an exception: no context is saved, no mode changes and there is nothing to return from (R208). -/
def raiseStatus (st : Status) : Response := { status := st }

/-- `raise ParameterOutOfRange(BAD_FIELD = k)` (R113). -/
def raiseOutOfRange (k : BitVec 3) : Response := { status := .parameterOutOfRange, badField := some k }

/-- `respond()`: status OK and no result field (VALIDATE, SET_ADDR; R25). -/
def respondOk : Response := { status := .ok }

/-- `respond(TXLEN = L, TX = …, WARN = w)` (R111). -/
def respondFrame (txLen : Nat) (tx : List Byte) (w : Bool) : Response :=
  { status := .ok, warn := some w, txLen := some txLen, tx := some tx }

/-- `respond(CKSUM = c)` (R101). -/
def respondChecksum (c : Half) : Response := { status := .ok, cksum := some c }

/-- `respond(SLOT_COUNT = |S|, SLOTS = S)` (R170). -/
def respondSlots (s : List Nat) : Response := { status := .ok, slotCount := some s.length, slots := some s }

/-- The operation ends: its response stands in the state, or the model's own defect is recorded (R202, R215). -/
def answer (s : State) (r : Except Fault Response) : Host.Outcome State Fault Refusal :=
  match r with
  | .ok resp => .next (s.withResponse resp)
  | .error f => .fault f

/-- Reading a response field: an absent one is a fault, never a value (R26). -/
def presentField {α : Type} (f : Option α) : Except Fault α :=
  match f with
  | some x => .ok x
  | none => .error .absentResponseField

/-- Read `WARN` (R26). -/
def Response.readWarn (r : Response) : Except Fault Bool := presentField r.warn
/-- Read `BAD_FIELD` (R26). -/
def Response.readBadField (r : Response) : Except Fault (BitVec 3) := presentField r.badField
/-- Read `TXLEN` (R26). -/
def Response.readTxLen (r : Response) : Except Fault Nat := presentField r.txLen
/-- Read `TX` (R26). -/
def Response.readTx (r : Response) : Except Fault (List Byte) := presentField r.tx
/-- Read `CKSUM` (R26). -/
def Response.readCksum (r : Response) : Except Fault Half := presentField r.cksum
/-- Read `SLOT_COUNT` (R26). -/
def Response.readSlotCount (r : Response) : Except Fault Nat := presentField r.slotCount
/-- Read `SLOTS` (R26). -/
def Response.readSlots (r : Response) : Except Fault (List Nat) := presentField r.slots

/-! ## Frame assembly -/

/-- The payload loop of R111: `P[k]` to index `addr + k`. -/
def writePayload (tx : TxBuffer) (addr : Nat) : List Byte → Except Fault TxBuffer
  | [] => .ok tx
  | b :: bs =>
    match memWrite tx addr 1 b.toNat with
    | .ok tx => writePayload tx (addr + 1) bs
    | .error f => .error f

/-- `EmitFrame(op, P)` with `w`, line by line (R111). `a` is `DEVADDR`, read once (R116). -/
def emitFrame (a : DevAddr) (op : Byte) (p : List Byte) (w : Bool) : Except Fault Response := do
  let n := p.length
  let l := frameOverhead + n
  let tx ← memWrite (txAlloc l) 0 2 headerWord
  let tx ← memWrite tx 2 4 (addrValue a)
  let tx ← memWrite tx 6 1 packetCommand
  let tx ← memWrite tx 7 2 (n + 3)
  let tx ← memWrite tx 9 1 op.toNat
  let tx ← writePayload tx 10 p
  let c ← ck (txRead tx) l
  let tx ← memWrite tx (l - checksumWidth) checksumWidth c.toNat
  let frame ← txFinish tx
  return respondFrame l frame w

/-! ## Refusal, reset and delivery -/

/-- `refuse` (R14, R205): the request gets no meaning and no response and writes no state of the block; its mark is
kept for the rest of the run, in which later requests are served as ever (R29, R243). -/
def refuse (host : Nat) (why : DecodeError) (s : State) : State := s.withRefusal host why


/-- What reset does to the block: `DEVADDR` takes its reset value, and nothing else is state (R230, R30). The
parameters are no state of the block (R232), inputs and deliveries are outside it (assumption log 10), and refusal
marks are "kept for the rest of the run" (R205). -/
def resetBlock (s : State) : State := s.withAddr resetAddr

/-- The response of the operation that just ended goes to the host that asked, and none remains in the block
(R203, R27, R28). -/
def deliver (host : Nat) (s : State) : State :=
  match s.response with
  | some r => s.withDelivery host r
  | none => s

end Sys2Proof.Machine
end

