-- ==== Sys2Proof/Machine/Build.lean ====
section
/-! DEFINITION. The eight BUILD operations (R110–R146). Every range check runs before `emitFrame`, in the order of
the command's parameter list, and the first that fails is reported (R112, R113); a BUILD writes no state. -/

namespace Sys2Proof.Machine

/-- BUILD_DELETECHAR (R136). -/
def execBuildDeleteChar (id count : Half) (s : State) : Host.Outcome State Fault Refusal :=
  answer s <|
    if idCapacity ≤ id.toNat then .ok (raiseOutOfRange 0)
    else if count.toNat < 1 ∨ 5 < count.toNat then .ok (raiseOutOfRange 1)
    else emitFrame s.devaddr 0x0C (payloadDeleteChar s.variant id count) warnNone

/-- BUILD_EMPTY (R140). -/
def execBuildEmpty (s : State) : Host.Outcome State Fault Refusal :=
  answer s (emitFrame s.devaddr 0x0D [] warnNone)

/-- BUILD_READINDEXTABLE (R144). -/
def execBuildReadIndexTable (page : Byte) (s : State) : Host.Outcome State Fault Refusal :=
  answer s (emitFrame s.devaddr 0x1F (payloadReadIndexTable page) warnNone)

/-- BUILD_CANCEL (R141). -/
def execBuildCancel (s : State) : Host.Outcome State Fault Refusal :=
  answer s (emitFrame s.devaddr 0x30 [] warnNone)

/-- BUILD_AUTOENROLL (R120). -/
def execBuildAutoEnroll (id : Half) (times : Byte) (flags : Half) (s : State) :
    Host.Outcome State Fault Refusal :=
  answer s <|
    if 5 < times.toNat then .ok (raiseOutOfRange 1)
    else emitFrame s.devaddr 0x31 (payloadAutoEnroll id times flags) warnNone

/-- BUILD_AUTOIDENTIFY (R122). -/
def execBuildAutoIdentify (id : Half) (score : Byte) (flags : Half) (s : State) :
    Host.Outcome State Fault Refusal :=
  answer s (emitFrame s.devaddr 0x32 (payloadAutoIdentify id score flags) warnNone)

/-- BUILD_SLEEP (R142): it builds the module's Sleep frame and does not put the block to sleep (R216). -/
def execBuildSleep (s : State) : Host.Outcome State Fault Refusal :=
  answer s (emitFrame s.devaddr 0x33 [] warnNone)

/-- BUILD_CONTROLLED (R130–R132). -/
def execBuildControlLed (fc scol ecol cyc : Byte) (s : State) : Host.Outcome State Fault Refusal :=
  answer s <|
    if fc.toNat < 1 ∨ s.variant.ledFcMax < fc.toNat then .ok (raiseOutOfRange 0)
    else emitFrame s.devaddr 0x3C (payloadControlLed fc scol ecol cyc) (warnColours scol ecol)

end Sys2Proof.Machine
end

