-- ==== Sys2Proof/Machine/Checksum.lean ====
section
/-! DEFINITION. The CHECKSUM operation (R100–R104). It reads its request only, not `DEVADDR`. -/

namespace Sys2Proof.Machine

/-- The response of CHECKSUM (R101, R102). -/
def checksumResponse (len : Nat) (rx : List Byte) : Except Fault Response :=
  if len ≤ 8 then .ok (raiseStatus .checksumInputTooShort)
  else
    match ckRx rx len with
    | .ok c => .ok (respondChecksum c)
    | .error f => .error f

/-- CHECKSUM (R101). -/
def execChecksum (len : Nat) (rx : List Byte) (s : State) : Host.Outcome State Fault Refusal :=
  answer s (checksumResponse len rx)

end Sys2Proof.Machine
end

