-- ==== Sys2Proof/Machine/Validate.lean ====
section
/-! DEFINITION. The frame validator (R150–R159): six gates in order, the first that fails ends the operation. -/

namespace Sys2Proof.Machine

/-- The status of the first failing gate, or OK (R150, R157). `a` is `DEVADDR`. -/
def gateStatus (a : DevAddr) (len : Nat) (rx : List Byte) : Except Fault Status := do
  if len < minResponseLength then return .frameTooShort
  else
    let header ← memRead rx len 0 2
    if header ≠ headerWord then return .headerMismatch
    else
      let address ← memRead rx len 2 4
      if address ≠ addrValue a then return .addressMismatch
      else
        let packetType ← memRead rx len 6 1
        if packetType ≠ packetResponse then return .packetTypeMismatch
        else
          let declared ← memRead rx len 7 2
          if declared + lengthBias ≠ len then return .lengthMismatch
          else
            let trailing ← memRead rx len (len - 2) 2
            let c ← ckRx rx len
            if trailing ≠ c.toNat then return .checksumMismatch
            else return .ok

/-- The response of VALIDATE: a status and nothing else (R150, R25). -/
def validateResponse (a : DevAddr) (len : Nat) (rx : List Byte) : Except Fault Response := do
  let st ← gateStatus a len rx
  if st = .ok then return respondOk
  else return raiseStatus st

/-- VALIDATE (R150). -/
def execValidate (len : Nat) (rx : List Byte) (s : State) : Host.Outcome State Fault Refusal :=
  answer s (validateResponse s.devaddr len rx)

end Sys2Proof.Machine
end

