-- ==== Sys2Proof/Machine/ParseIndex.lean ====
section
/-! DEFINITION. The index-table parser (R170–R177): validation first, then the scan of 13 bytes, bit 0 first,
capped at 100 ids. -/

namespace Sys2Proof.Machine

/-- The inner loop of R170 over the bits of bitmap byte `k`, whose value is `v`: once 100 ids are held, no further
bit is examined (R174). -/
def scanBits (k v : Nat) : (bits slots : List Nat) → List Nat
  | [], slots => slots
  | b :: bits, slots =>
    if slots.length = idCapacity then slots
    else scanBits k v bits (if v.testBit b then slots ++ [8 * k + b] else slots)

/-- The outer loop of R170 over the bitmap bytes `ks`. -/
def scanBytes (rx : List Byte) (len : Nat) : (ks slots : List Nat) → Except Fault (List Nat)
  | [], slots => .ok slots
  | k :: ks, slots =>
    match memRead rx len (bitmapOffset + k) 1 with
    | .ok v => scanBytes rx len ks (scanBits k v (List.range 8) slots)
    | .error f => .error f

/-- The response of PARSE_INDEX (R170–R175). -/
def parseIndexResponse (a : DevAddr) (len : Nat) (rx : List Byte) : Except Fault Response := do
  let st ← gateStatus a len rx
  if st ≠ .ok then return raiseStatus st
  else if len < minIndexLength then return raiseStatus .frameTooShort
  else
    let slots ← scanBytes rx len (List.range bitmapBytes) []
    return respondSlots slots

/-- PARSE_INDEX (R170). -/
def execParseIndex (len : Nat) (rx : List Byte) (s : State) : Host.Outcome State Fault Refusal :=
  answer s (parseIndexResponse s.devaddr len rx)

end Sys2Proof.Machine
end

