-- ==== Sys2Proof/Machine/SetAddr.lean ====
section
/-! DEFINITION. The device-address configuration (R190–R193). -/

namespace Sys2Proof.Machine

/-- SET_ADDR: all four bytes of `DEVADDR` in one step, always OK (R190, R49). -/
def execSetAddr (newAddr : DevAddr) (s : State) : Host.Outcome State Fault Refusal :=
  answer (s.withAddr newAddr) (.ok respondOk)

end Sys2Proof.Machine
end

