-- ==== Sys2Proof/Machine/Dispatch.lean ====
section
/-! DEFINITION. One arm per instruction: its meaning. -/

namespace Sys2Proof.Machine

def exec (i : Instr) (s : State) : Host.Outcome State Fault Refusal :=
  match i with
  | .checksum len rx => Sys2Proof.Machine.execChecksum len rx s
  | .buildDeleteChar id count => Sys2Proof.Machine.execBuildDeleteChar id count s
  | .buildEmpty => Sys2Proof.Machine.execBuildEmpty s
  | .buildReadIndexTable page => Sys2Proof.Machine.execBuildReadIndexTable page s
  | .buildCancel => Sys2Proof.Machine.execBuildCancel s
  | .buildAutoEnroll id times flags => Sys2Proof.Machine.execBuildAutoEnroll id times flags s
  | .buildAutoIdentify id score flags => Sys2Proof.Machine.execBuildAutoIdentify id score flags s
  | .buildSleep => Sys2Proof.Machine.execBuildSleep s
  | .buildControlLed fc scol ecol cyc => Sys2Proof.Machine.execBuildControlLed fc scol ecol cyc s
  | .validate len rx => Sys2Proof.Machine.execValidate len rx s
  | .parseIndex len rx => Sys2Proof.Machine.execParseIndex len rx s
  | .setAddr newAddr => Sys2Proof.Machine.execSetAddr newAddr s

end Sys2Proof.Machine
end

