-- ==== Sys2Proof/Machine/Serve.lean ====
section
/-! DEFINITION. Serving one input: a request is decoded, performed and answered as one indivisible step (R6, R48);
a reset stands between requests (R231). -/

namespace Sys2Proof.Machine

/-- The outcome of the operation, its response sent to the host that asked (R203, R207). -/
def deliverOutcome (host : Nat) (o : Host.Outcome State Fault Refusal) : Host.Outcome State Fault Refusal :=
  match o with
  | .next t => .next (deliver host t)
  | .fault f => .fault f
  | .refused r => .refused r

/-- Serve one input. A request that R72 refuses gets no meaning and no response, and leaves its mark (R205); a request
cut by a reset gets no response and has no effect (R231). MODEL'S CHOICE: a request cut by a reset is not decoded, so
that one which R72 would refuse is abandoned like any other and leaves no mark; the spec does not say whether R205's
mark is recorded for it (DESIGN CHOICE, assumption log 16). -/
def serve (e : Event) (s : State) : Host.Outcome State Fault Refusal :=
  match e with
  | .reset => .next (resetBlock s)
  | .resetDuring _ _ => .next (resetBlock s)
  | .request host r =>
    match decode s.variant r with
    | .error why => .next (refuse host why s)
    | .ok i => deliverOutcome host (exec i s)

end Sys2Proof.Machine
end

