-- ==== Sys2Proof/Machine/Step.lean ====
section
/-! DEFINITION. One step of the machine, and where the host places a word of the opcode table. -/

namespace Sys2Proof.Machine

/-- One step: the oldest pending input is accepted and served whole (R6, R48). With nothing pending the block is
idle and nothing changes (R22, R216, R232). -/
def step (s : State) : Host.Outcome State Fault Refusal :=
  match s.pending with
  | [] => .next s
  | e :: rest => serve e (s.withPending rest)

/-- `s` with the request that a word of spec/opcode_table.json stands for as the very next input, from host 0: the
block has no fetch (R22), so the request stands at the head of the pending inputs (assumption log 1, 11). -/
def State.withFetchWord (s : State) (nbits w : Nat) : State :=
  s.withPending (.request 0 (requestOfTableWord nbits w) :: s.pending)

end Sys2Proof.Machine
end

