-- ==== Sys2Proof/Machine/Text.lean ====
section
/-! DEFINITION. The textual syntax of a request (R73): `MNEMONIC name=value, name=value`, read into the request it
stands for. A value that does not fit its field is no request text (R24). The operands are named, so they are read
in any order (assumption log 12). -/

namespace Sys2Proof.Machine

/-- The operation mnemonics of R62. -/
def mnemonicOf : Operation → String
  | .checksum => "CHECKSUM"
  | .buildDeleteChar => "BUILD_DELETECHAR"
  | .buildEmpty => "BUILD_EMPTY"
  | .buildReadIndexTable => "BUILD_READINDEXTABLE"
  | .buildCancel => "BUILD_CANCEL"
  | .buildAutoEnroll => "BUILD_AUTOENROLL"
  | .buildAutoIdentify => "BUILD_AUTOIDENTIFY"
  | .buildSleep => "BUILD_SLEEP"
  | .buildControlLed => "BUILD_CONTROLLED"
  | .validate => "VALIDATE"
  | .parseIndex => "PARSE_INDEX"
  | .setAddr => "SET_ADDR"

/-- The pieces of a text between the occurrences of `c`. -/
def splitAtChar (c : Char) : List Char → List (List Char)
  | [] => [[]]
  | x :: xs =>
    match splitAtChar c xs with
    | [] => [[x]]
    | w :: ws => if x = c then [] :: w :: ws else (x :: w) :: ws

/-- A text without the spaces before and after it. -/
def trimSpaces (t : List Char) : List Char :=
  ((t.dropWhile (· = ' ')).reverse.dropWhile (· = ' ')).reverse

/-- The value of a decimal or hexadecimal digit. -/
def digitValue (c : Char) : Option Nat :=
  if '0' ≤ c ∧ c ≤ '9' then some (c.toNat - 48)
  else if 'A' ≤ c ∧ c ≤ 'F' then some (c.toNat - 55)
  else if 'a' ≤ c ∧ c ≤ 'f' then some (c.toNat - 87)
  else none

/-- The number a digit text writes in the given base. -/
def digitsValue (base : Nat) : (digits : List Char) → (acc : Nat) → Option Nat
  | [], acc => some acc
  | c :: cs, acc =>
    match digitValue c with
    | some d => if d < base then digitsValue base cs (acc * base + d) else none
    | none => none

/-- A decimal or `0x` hexadecimal number (R73). -/
def numberOf : List Char → Option Nat
  | [] => none
  | ['0', 'x'] => none
  | '0' :: 'x' :: digits => digitsValue 16 digits 0
  | digits => digitsValue 10 digits 0

/-- A number that fits in `w` bits (R24). -/
def fieldOf (w : Nat) (t : List Char) : Option (BitVec w) :=
  (numberOf t).bind fun n => if n < 2 ^ w then some (BitVec.ofNat w n) else none

/-- Bytes as two-digit hexadecimal numbers (R73). -/
def hexBytes : List (List Char) → Option (List Byte)
  | [] => some []
  | [hi, lo] :: rest =>
    (digitsValue 16 [hi, lo] 0).bind fun n => (hexBytes rest).map fun bs => BitVec.ofNat 8 n :: bs
  | _ :: _ => none

/-- A buffer `[b0 b1 …]` (R73). -/
def bufferOf : List Char → Option (List Byte)
  | '[' :: t =>
    if t.getLast? = some ']' then
      if t.length = 1 then some [] else hexBytes (splitAtChar ' ' t.dropLast)
    else none
  | _ => none

/-- A device address `0xHHHHHHHH`, `N[0]` the most-significant pair (R73, R190). -/
def addressOf (t : List Char) : Option DevAddr :=
  if t.length = 10 ∧ t.take 2 = ['0', 'x'] then
    (fieldOf 32 t).map fun v =>
      ⟨v.extractLsb' 24 8, v.extractLsb' 16 8, v.extractLsb' 8 8, v.extractLsb' 0 8⟩
  else none

/-- Give the operand field of this name its value; a field is given at most once. -/
def setField (f : OperandFields) (name : String) (t : List Char) : Option OperandFields :=
  match name with
  | "id" => if f.id.isSome then none else (fieldOf 16 t).map fun v => { f with id := some v }
  | "times" => if f.times.isSome then none else (fieldOf 8 t).map fun v => { f with times := some v }
  | "flags" => if f.flags.isSome then none else (fieldOf 16 t).map fun v => { f with flags := some v }
  | "score" => if f.score.isSome then none else (fieldOf 8 t).map fun v => { f with score := some v }
  | "fc" => if f.fc.isSome then none else (fieldOf 8 t).map fun v => { f with fc := some v }
  | "scol" => if f.scol.isSome then none else (fieldOf 8 t).map fun v => { f with scol := some v }
  | "ecol" => if f.ecol.isSome then none else (fieldOf 8 t).map fun v => { f with ecol := some v }
  | "cyc" => if f.cyc.isSome then none else (fieldOf 8 t).map fun v => { f with cyc := some v }
  | "count" => if f.count.isSome then none else (fieldOf 16 t).map fun v => { f with count := some v }
  | "page" => if f.page.isSome then none else (fieldOf 8 t).map fun v => { f with page := some v }
  | "addr" => if f.newAddr.isSome then none else (addressOf t).map fun v => { f with newAddr := some v }
  | "len" => if f.len.isSome then none else (numberOf t).map fun v => { f with len := some v }
  | "rx" => if f.rx.isSome then none else (bufferOf t).map fun v => { f with rx := some v }
  | _ => none

/-- Read the operands `name=value`. -/
def readOperands (f : OperandFields) : List (List Char) → Option OperandFields
  | [] => some f
  | t :: ts =>
    match splitAtChar '=' (trimSpaces t) with
    | [name, value] => (setField f (String.ofList name) value).bind fun f => readOperands f ts
    | _ => none

/-- The request a line of text stands for, `none` where the line is not in the syntax of R73. -/
def assemble (line : String) : Option Request :=
  let t := trimSpaces line.toList
  let word := t.takeWhile (· ≠ ' ')
  let rest := trimSpaces (t.dropWhile (· ≠ ' '))
  (allOperations.find? fun o => mnemonicOf o == String.ofList word).bind fun o =>
    (readOperands {} (if rest.isEmpty then [] else splitAtChar ',' rest)).map fun f =>
      { reqsel := o.reqsel, fields := f }

end Sys2Proof.Machine
end

