-- ==== Sys2Proof/Safety.lean ====
section
/-! DEFINITION. The terms the claims are stated in: the frames, checksums, gates and slot lists of the spec written
declaratively (no loop, no fault), what a legal response is, and what a good state is. -/

namespace Sys2Proof.Machine

/-- The unsigned sum of a byte sequence. -/
def byteSum (bs : List Byte) : Nat := (bs.map BitVec.toNat).sum

/-- `CK(B, L)` as R100 writes it: the sum of the bytes at indices 6..`L-3`, modulo 2^16. -/
def checksumOf (b : List Byte) (len : Nat) : Half := BitVec.ofNat 16 (byteSum ((b.drop 6).take (len - 8)))

/-- The bytes of a command frame before its checksum (R63). -/
def frameBody (a : DevAddr) (op : Byte) (p : List Byte) : List Byte :=
  [0xEF, 0x01] ++ a.bytes ++ [0x01] ++ beBytes 2 (p.length + 3) ++ [op] ++ p

/-- The command frame of R63 with opcode `op` and payload `p`. -/
def frameOf (a : DevAddr) (op : Byte) (p : List Byte) : List Byte :=
  frameBody a op p ++ beBytes 2 (byteSum ((frameBody a op p).drop 6) % 65536)

/-- The byte at an index of a sequence, as a number; the claims use it at indices inside the sequence only. -/
def byteAt (b : List Byte) (i : Nat) : Nat := (b.getD i 0).toNat

/-- `BE16` of the two bytes at `i` and `i + 1` (R12). -/
def be16At (b : List Byte) (i : Nat) : Nat := byteAt b i * 256 + byteAt b (i + 1)

/-- Gate `k` of the validator passes (R151–R156). -/
def gatePasses (a : DevAddr) (len : Nat) (rx : List Byte) : (k : Nat) → Prop
  | 1 => 12 ≤ len
  | 2 => rx[0]? = some 0xEF ∧ rx[1]? = some 0x01
  | 3 => rx[2]? = some a.a0 ∧ rx[3]? = some a.a1 ∧ rx[4]? = some a.a2 ∧ rx[5]? = some a.a3
  | 4 => rx[6]? = some 0x07
  | 5 => be16At rx 7 + 9 = len
  | 6 => be16At rx (len - 2) = (checksumOf rx len).toNat
  | _ => True

/-- All six gates pass: the response frame of R66. -/
def allGatesPass (a : DevAddr) (len : Nat) (rx : List Byte) : Prop :=
  ∀ k, 1 ≤ k → k ≤ 6 → gatePasses a len rx k

/-- The status of gate `k` (R151–R156, R200). -/
def gateError : Nat → Status
  | 1 => .frameTooShort
  | 2 => .headerMismatch
  | 3 => .addressMismatch
  | 4 => .packetTypeMismatch
  | 5 => .lengthMismatch
  | 6 => .checksumMismatch
  | _ => .ok

/-- Gate `k` is the first that fails (R157). -/
def firstFailure (a : DevAddr) (len : Nat) (rx : List Byte) (k : Nat) : Prop :=
  1 ≤ k ∧ k ≤ 6 ∧ ¬ gatePasses a len rx k ∧ ∀ j, 1 ≤ j → j < k → gatePasses a len rx j

/-- The bit of the bitmap that stands for slot `n`: bit `n mod 8` of `RX[10 + n / 8]` (R67). -/
def slotOccupied (rx : List Byte) (n : Nat) : Bool := (byteAt rx (10 + n / 8)).testBit (n % 8)

/-- The first 100 occupied slots in ascending order (R173, R174). -/
def occupiedSlots (rx : List Byte) : List Nat := ((List.range 104).filter (slotOccupied rx)).take 100

/-- The frame as a response: packet type 0x07 and the checksum recomputed (R146, C5). -/
def asResponse (tx : List Byte) : List Byte :=
  let typed := tx.set 6 0x07
  typed.take (tx.length - 2) ++ beBytes 2 (checksumOf typed tx.length).toNat

/-- The response frame of R66 for the payload `p`, sent under the address `a`. -/
def responseFrame (a : DevAddr) (p : List Byte) : List Byte :=
  let body := [0xEF, 0x01] ++ a.bytes ++ [0x07] ++ beBytes 2 (p.length + 2) ++ p
  body ++ beBytes 2 (byteSum (body.drop 6) % 65536)

/-- An operand field that the operation carries is missing, by the table of R24. -/
def missingOperand (f : OperandFields) : Operation → Prop
  | .checksum | .validate | .parseIndex => f.len = none ∨ f.rx = none
  | .buildDeleteChar => f.id = none ∨ f.count = none
  | .buildReadIndexTable => f.page = none
  | .buildAutoEnroll => f.id = none ∨ f.times = none ∨ f.flags = none
  | .buildAutoIdentify => f.id = none ∨ f.score = none ∨ f.flags = none
  | .buildControlLed => f.fc = none ∨ f.scol = none ∨ f.ecol = none ∨ f.cyc = none
  | .setAddr => f.newAddr = none
  | .buildEmpty | .buildCancel | .buildSleep => False

/-- `i` is one of the eight BUILD operations (R2). -/
def isBuild (i : Instr) : Bool :=
  match i.operation with
  | .buildDeleteChar | .buildEmpty | .buildReadIndexTable | .buildCancel | .buildAutoEnroll | .buildAutoIdentify
  | .buildSleep | .buildControlLed => true
  | .checksum | .validate | .parseIndex | .setAddr => false

/-- What R146 and R69 say of every built frame, but for its device address. -/
def legalFrame (tx : List Byte) : Prop :=
  12 ≤ tx.length ∧ tx.length ≤ 17 ∧ tx[0]? = some 0xEF ∧ tx[1]? = some 0x01 ∧ tx[6]? = some 0x01 ∧
    be16At tx 7 + 9 = tx.length ∧
    (∃ op ∈ ([0x0C, 0x0D, 0x1F, 0x30, 0x31, 0x32, 0x33, 0x3C] : List Byte), tx[9]? = some op) ∧
    be16At tx (tx.length - 2) = (checksumOf tx tx.length).toNat

/-- What R173 and R174 say of every slot list. -/
def legalSlots (slots : List Nat) : Prop :=
  slots.Pairwise (· < ·) ∧ slots.length ≤ 100 ∧ ∀ n ∈ slots, n ≤ 103

/-- The responses the block can give (R25, R26, R200, R201): exactly the fields of R25 are present. -/
def Response.legal (r : Response) : Prop :=
  r = respondOk ∨
  (∃ st, st ≠ .ok ∧ st ≠ .parameterOutOfRange ∧ r = raiseStatus st) ∨
  (∃ k, (k = 0 ∨ k = 1) ∧ r = raiseOutOfRange k) ∨
  (∃ tx w, legalFrame tx ∧ r = respondFrame tx.length tx w) ∨
  (∃ c, r = respondChecksum c) ∨
  (∃ slots, legalSlots slots ∧ r = respondSlots slots)

/-- A good state between steps: no response is left in the block (R28–R30), and every response sent was legal. -/
def State.good (s : State) : Prop :=
  s.response = none ∧ ∀ d ∈ s.delivered, d.response.legal

/-- The requests of host `h` among these inputs that are served or refused, in order (a request cut by a reset is
neither, assumption log 16). -/
def requestsOf (h : Nat) : List Event → List Request
  | [] => []
  | .request h' r :: es => if h' = h then r :: requestsOf h es else requestsOf h es
  | .reset :: es => requestsOf h es
  | .resetDuring _ _ :: es => requestsOf h es

/-- `pending` is an interleaving of the hosts' request streams: each host's requests stand in it in that host's own
order, and nothing else constrains it (R48, D27). -/
def interleaves (streams : Nat → List Request) (pending : List Event) : Prop :=
  ∀ h, requestsOf h pending = streams h

/-- `DEVADDR` after these inputs are served in order: the last SET_ADDR or reset decides (R20, R48). -/
def addrAfter (v : Variant) (a : DevAddr) : List Event → DevAddr
  | [] => a
  | .reset :: es => addrAfter v resetAddr es
  | .resetDuring _ _ :: es => addrAfter v resetAddr es
  | .request _ r :: es =>
    match decode v r with
    | .ok (.setAddr n) => addrAfter v n es
    | _ => addrAfter v a es

/-- The response to `i` as a function of the instance's parameters and of the address alone: what the operation
answers on an otherwise empty state (R29). -/
def replyTo (v : Variant) (a : DevAddr) (i : Instr) : Option Response :=
  match exec i { devaddr := a, variant := v, pending := [], response := none, delivered := [], refusals := [] } with
  | .next t => t.response
  | .fault _ => none
  | .refused _ => none

/-- The block with parameters `v` accepts this request: the decoder refuses it neither as R72 lists nor by the model's
own choices (assumption log 6, 7). -/
def accepted (v : Variant) (r : Request) : Bool :=
  match decode v r with
  | .ok _ => true
  | .error _ => false

/-- The marks of the refused requests among these inputs, in order (R205; assumption log 5, 6, 7, 16). -/
def marksOf (v : Variant) : List Event → List RefusalMark
  | [] => []
  | .reset :: es => marksOf v es
  | .resetDuring _ _ :: es => marksOf v es
  | .request h r :: es =>
    match decode v r with
    | .ok _ => marksOf v es
    | .error why => { host := h, why := why } :: marksOf v es

/-- The responses to these inputs served in order from address `a`: each request is answered by what its operation
replies under the address in force when it is reached, and to the host that issued it (R29, R48, R203). -/
def repliesTo (v : Variant) (a : DevAddr) : List Event → List Delivery
  | [] => []
  | .reset :: es => repliesTo v resetAddr es
  | .resetDuring _ _ :: es => repliesTo v resetAddr es
  | .request h r :: es =>
    match decode v r with
    | .ok i =>
      ((replyTo v a i).toList.map fun p => { host := h, response := p }) ++
        repliesTo v (addrAfter v a [.request h r]) es
    | .error _ => repliesTo v a es

end Sys2Proof.Machine
end

