-- ==== Sys2Proof/Certificates/Slice0/Obligations.lean ====
section
/-! DEFINITION. The statements for the provers. Each docstring says which rule of the spec it formalises. In every
statement about an instruction the next state is written out as an update of the state before, so that it says
what changes and that nothing else does. -/

open Sys2Proof Sys2Proof.Machine

/-! ## Reset and the step -/

/-- R230: reset gives `DEVADDR` the value 0xFFFFFFFF, and nothing else is reset. That a reset arrives as one of the
inputs is the model's form (assumption log 1), and that inputs which wait, responses already sent and refusal marks
outlast it is the model's reading (assumption log 10). -/
def Obligations.ResetLoadsTheBroadcastAddress : Prop :=
  (State.reset.devaddr = ⟨0xFF, 0xFF, 0xFF, 0xFF⟩ ∧ addrValue State.reset.devaddr = 0xFFFFFFFF) ∧
  ∀ (s : State) (rest : List Event), s.pending = .reset :: rest →
    step s = .next { s with devaddr := ⟨0xFF, 0xFF, 0xFF, 0xFF⟩, pending := rest }

/-- R231: a request cut by a reset gets no response and has no effect, a SET_ADDR included; the address is the
reset value. The input that stands for the cut is the model's form (assumption log 1); that everything but the
address outlasts it is the model's reading (assumption log 10); and that a request which R72 would refuse is abandoned
without a mark is the model's choice (assumption log 16). -/
def Obligations.ResetAbandonsTheRequestInProgress : Prop :=
  ∀ (s : State) (h : Nat) (r : Request) (rest : List Event), s.pending = .resetDuring h r :: rest →
    step s = .next { s with devaddr := ⟨0xFF, 0xFF, 0xFF, 0xFF⟩, pending := rest }

/-- R216, R232: with no request the block is idle. (That an idle step is a step that changes nothing is the model's
form, assumption log 1.) -/
def Obligations.IdleStepChangesNothing : Prop :=
  ∀ s : State, s.pending = [] → step s = .next s

/-- A step on a request performs exactly the instruction it decodes to: the instruction gives a next state with a
response, and the step gives that state with the response moved to the host that asked. -/
def Obligations.StepPerformsTheDecodedInstruction : Prop :=
  ∀ (s : State) (h : Nat) (r : Request) (rest : List Event) (i : Instr),
    s.pending = .request h r :: rest → decode s.variant r = .ok i →
    ∃ t p, exec i { s with pending := rest } = .next t ∧ t.response = some p ∧
      step s = .next { t with response := none, delivered := t.delivered ++ [{ host := h, response := p }] }

/-- R72, R203, R205: every request that R72 lists is refused: reserved `OPSEL`; unknown `CMD`; `CMD` outside BUILD;
a missing operand; a receive buffer that is too long for the block or shorter than `LEN`. It gets no response and
writes no state; its mark is recorded, and the run goes on. A request that leaves no mark is one of the twelve
operations and is answered: none is a hint, a no-op or a custom encoding. (The form of the mark is the model's,
assumption log 5.) -/
def Obligations.ReservedAndIllegalRequestsAreRefused : Prop :=
  ∀ (s : State) (h : Nat) (r : Request) (rest : List Event), s.pending = .request h r :: rest →
    (((r.reqsel.toNat / 256 < 1 ∨ 5 < r.reqsel.toNat / 256) ∨
      (r.reqsel.toNat / 256 = 2 ∧
        r.reqsel.toNat % 256 ∉ [0x0C, 0x0D, 0x1F, 0x30, 0x31, 0x32, 0x33, 0x3C]) ∨
      (r.reqsel.toNat / 256 ≠ 2 ∧ r.reqsel.toNat % 256 ≠ 0) ∨
      (∃ o : Operation, o.reqsel = r.reqsel ∧ missingOperand r.fields o) ∨
      (∃ o : Operation, o.reqsel = r.reqsel ∧ (o = .checksum ∨ o = .validate ∨ o = .parseIndex) ∧
        ∃ len rx, r.fields.len = some len ∧ r.fields.rx = some rx ∧
          (s.variant.rxMax < len ∨ rx.length < len))) →
      ∃ why, step s =
        .next { s with pending := rest, refusals := s.refusals ++ [{ host := h, why := why }] }) ∧
    (∀ t, step s = .next t → t.refusals = s.refusals →
      (∃ o : Operation, o.reqsel = r.reqsel) ∧ ∃ p, t.delivered = s.delivered ++ [{ host := h, response := p }])

/-- Every request for a well-formed instruction is answered: the step gives a next state with one response more,
sent to the host that asked, takes that one input and marks no refusal (R203, R205, R207). -/
def Obligations.WellFormedRequestsAreAnsweredOnce : Prop :=
  ∀ (s : State) (h : Nat) (i : Instr) (rest : List Event), s.pending = .request h (encode i) :: rest →
    wellFormed s.variant i = true →
    ∃ t p, step s = .next t ∧ t.delivered = s.delivered ++ [{ host := h, response := p }] ∧
      t.response = none ∧ t.pending = rest ∧ t.variant = s.variant ∧ t.refusals = s.refusals

/-- One step takes one input, keeps the instance's parameters, and sends at most one response or marks at most one
refusal, never both (R48, R205, R232). -/
def Obligations.StepTakesOneInput : Prop :=
  ∀ s t : State, step s = .next t →
    t.pending = s.pending.tail ∧ t.variant = s.variant ∧
      ((t.delivered = s.delivered ∧ t.refusals = s.refusals) ∨
        (∃ d, t.delivered = s.delivered ++ [d] ∧ t.refusals = s.refusals) ∨
        (t.delivered = s.delivered ∧ ∃ m, t.refusals = s.refusals ++ [m]))

/-! ## Decode and encode -/

/-- The decoder reads back every well-formed instruction from the request that asks for it, whatever its operands
(R24, R62). -/
def Obligations.DecodeReadsBackEveryEncoding : Prop :=
  ∀ (v : Variant) (i : Instr), wellFormed v i = true → decode v (encode i) = .ok i

/-- The decoder accepts nothing else: a request it accepts is the request of the instruction it answers, with all 16
bits of `REQSEL` and exactly its operand fields, and that instruction is well-formed (R24, R62). (That a surplus
field is refused is the model's reading of "exactly", assumption log 6.) -/
def Obligations.DecodeAcceptsOnlyEncodings : Prop :=
  ∀ (v : Variant) (r : Request) (i : Instr), decode v r = .ok i → encode i = r ∧ wellFormed v i = true

/-- Words of the operation map, of every operation class of R61, decode to the operations they stand for (R60, R61,
R62). -/
def Obligations.OperationMapWordsDecode : Prop :=
  let v : Variant := { ledModes := .seven, delCountWidth := .two, rxExtra := 0 }
  decode v { reqsel := 0x0100, fields := { len := some 2, rx := some [0xEF, 0x01] } } =
    .ok (.checksum 2 [0xEF, 0x01]) ∧
  decode v { reqsel := 0x0231, fields := { id := some 0x1234, times := some 3, flags := some 0x789A } } =
    .ok (.buildAutoEnroll 0x1234 3 0x789A) ∧
  decode v { reqsel := 0x020D, fields := {} } = .ok .buildEmpty ∧
  decode v { reqsel := 0x0300, fields := { len := some 3, rx := some [0xEF, 0x01, 0x07] } } =
    .ok (.validate 3 [0xEF, 0x01, 0x07]) ∧
  decode v { reqsel := 0x0400, fields := { len := some 1, rx := some [0xEF] } } = .ok (.parseIndex 1 [0xEF]) ∧
  decode v { reqsel := 0x0500, fields := { newAddr := some ⟨0x12, 0x34, 0x56, 0x78⟩ } } =
    .ok (.setAddr ⟨0x12, 0x34, 0x56, 0x78⟩)

/-- The four examples of R73's textual syntax stand for the requests it gives them for. -/
def Obligations.RequestTextExamplesAreRead : Prop :=
  assemble "BUILD_AUTOENROLL id=5, times=3, flags=0x0000" = some (encode (.buildAutoEnroll 5 3 0)) ∧
  assemble "BUILD_EMPTY" = some (encode .buildEmpty) ∧
  assemble "VALIDATE len=12, rx=[EF 01 FF FF FF FF 07 00 03 00 00 0A]" =
    some (encode (.validate 12 [0xEF, 0x01, 0xFF, 0xFF, 0xFF, 0xFF, 0x07, 0x00, 0x03, 0x00, 0x00, 0x0A])) ∧
  assemble "SET_ADDR addr=0x12345678" = some (encode (.setAddr ⟨0x12, 0x34, 0x56, 0x78⟩))

/-! ## CHECKSUM -/

/-- R100–R103: CHECKSUM of 8 bytes or fewer reports ChecksumInputTooShort and no value; of more it answers the sum of
the bytes at 6..`LEN-3` modulo 2^16. Nothing else changes. -/
def Obligations.ChecksumSumsItsRange : Prop :=
  ∀ (len : Nat) (rx : List Byte) (s : State), len ≤ rx.length →
    (encode (.checksum len rx)).reqsel = 0x0100 ∧
    exec (.checksum len rx) s = .next { s with response := some (
      if len ≤ 8 then { status := .checksumInputTooShort }
      else { status := .ok, cksum := some (BitVec.ofNat 16 (byteSum ((rx.drop 6).take (len - 8)))) }) }

/-- R104: the checksum depends on the bytes at 6..`L-3` alone, not on the header, the address bytes or `DEVADDR`; two
buffers have one checksum exactly where their sums over that range agree modulo 2^16, so that a change of one byte of
the range changes it; and one command built under two addresses has one checksum. -/
def Obligations.ChecksumCoversTypeToPayloadOnly : Prop :=
  (∀ (len : Nat) (rx rx' : List Byte) (s s' : State), 8 < len → len ≤ rx.length → len ≤ rx'.length →
    (∀ i, 6 ≤ i → i + 3 ≤ len → rx[i]? = rx'[i]?) →
    ∃ c, exec (.checksum len rx) s = .next { s with response := some { status := .ok, cksum := some c } } ∧
      exec (.checksum len rx') s' = .next { s' with response := some { status := .ok, cksum := some c } }) ∧
  (∀ (len : Nat) (rx rx' : List Byte) (s : State), 8 < len → len ≤ rx.length → len ≤ rx'.length →
    ∃ c c', exec (.checksum len rx) s = .next { s with response := some { status := .ok, cksum := some c } } ∧
      exec (.checksum len rx') s = .next { s with response := some { status := .ok, cksum := some c' } } ∧
      (c = c' ↔ byteSum ((rx.drop 6).take (len - 8)) % 65536 = byteSum ((rx'.drop 6).take (len - 8)) % 65536)) ∧
  (∀ (len i : Nat) (rx : List Byte) (b : Byte) (s : State), 8 < len → len ≤ rx.length → 6 ≤ i → i + 3 ≤ len →
    rx[i]? ≠ some b →
    ∃ c c', c ≠ c' ∧
      exec (.checksum len rx) s = .next { s with response := some { status := .ok, cksum := some c } } ∧
      exec (.checksum len (rx.set i b)) s =
        .next { s with response := some { status := .ok, cksum := some c' } }) ∧
  (∀ (i : Instr) (s s' t t' : State) (r r' : Response) (tx tx' : List Byte), isBuild i = true →
    s.variant = s'.variant → exec i s = .next t → exec i s' = .next t' → t.response = some r →
    t'.response = some r' → r.tx = some tx → r'.tx = some tx' →
    tx.length = tx'.length ∧ tx.take 2 = tx'.take 2 ∧ tx.drop 6 = tx'.drop 6)

/-! ## BUILD -/

/-- R140, R141, R142: Empty, Cancel and Sleep build their 12-byte frames and change nothing else. -/
def Obligations.CommandsWithoutParametersBuildTheirFrames : Prop :=
  ∀ s : State,
    ((encode .buildEmpty).reqsel = 0x020D ∧ (encode .buildCancel).reqsel = 0x0230 ∧
      (encode .buildSleep).reqsel = 0x0233) ∧
    exec .buildEmpty s = .next { s with response := some (
      { status := .ok, warn := some false, txLen := some 12,
        tx := some [0xEF, 0x01, s.devaddr.a0, s.devaddr.a1, s.devaddr.a2, s.devaddr.a3, 0x01, 0x00, 0x03, 0x0D,
          0x00, 0x11] }) } ∧
    exec .buildCancel s = .next { s with response := some (
      { status := .ok, warn := some false, txLen := some 12,
        tx := some [0xEF, 0x01, s.devaddr.a0, s.devaddr.a1, s.devaddr.a2, s.devaddr.a3, 0x01, 0x00, 0x03, 0x30,
          0x00, 0x34] }) } ∧
    exec .buildSleep s = .next { s with response := some (
      { status := .ok, warn := some false, txLen := some 12,
        tx := some [0xEF, 0x01, s.devaddr.a0, s.devaddr.a1, s.devaddr.a2, s.devaddr.a3, 0x01, 0x00, 0x03, 0x33,
          0x00, 0x37] }) }

/-- R144: ReadIndexTable places `PAGE`, whatever its value; the checksum is 0x24 + `PAGE`. -/
def Obligations.ReadIndexTablePlacesItsPage : Prop :=
  ∀ (page : Byte) (s : State),
    (encode (.buildReadIndexTable page)).reqsel = 0x021F ∧
    exec (.buildReadIndexTable page) s = .next { s with response := some (
      { status := .ok, warn := some false, txLen := some 13,
        tx := some ([0xEF, 0x01, s.devaddr.a0, s.devaddr.a1, s.devaddr.a2, s.devaddr.a3, 0x01, 0x00, 0x04, 0x1F,
          page] ++ [BitVec.ofNat 8 ((0x24 + page.toNat) / 256), BitVec.ofNat 8 (0x24 + page.toNat)])}) }

/-- R120: AutoEnroll raises ParameterOutOfRange on field 1 where `TIMES` is above 5, and builds its 17-byte frame
otherwise, for every `ID` and `FLAGS`. -/
def Obligations.AutoEnrollChecksTimes : Prop :=
  ∀ (id : Half) (times : Byte) (flags : Half) (s : State),
    (encode (.buildAutoEnroll id times flags)).reqsel = 0x0231 ∧
    exec (.buildAutoEnroll id times flags) s = .next { s with response := some (
      if 5 < times.toNat then { status := .parameterOutOfRange, badField := some 1 }
      else { status := .ok, warn := some false, txLen := some 17,
             tx := some (frameOf s.devaddr 0x31 [hi8 id, lo8 id, times, hi8 flags, lo8 flags]) }) }

/-- R122: AutoIdentify builds its 17-byte frame for every operand. -/
def Obligations.AutoIdentifyAcceptsEveryOperand : Prop :=
  ∀ (id : Half) (score : Byte) (flags : Half) (s : State),
    (encode (.buildAutoIdentify id score flags)).reqsel = 0x0232 ∧
    exec (.buildAutoIdentify id score flags) s = .next { s with response := some (
      { status := .ok, warn := some false, txLen := some 17,
        tx := some (frameOf s.devaddr 0x32 [hi8 id, lo8 id, score, hi8 flags, lo8 flags])}) }

/-- R130, R131, R132: ControlLED raises ParameterOutOfRange on field 0 where `FC` is outside 1..`P_LED_FC_MAX`;
otherwise it builds its 16-byte frame with both colours modulo 8, and warns where a colour was above 7. -/
def Obligations.ControlLedMasksColoursAndWarns : Prop :=
  ∀ (fc scol ecol cyc : Byte) (s : State),
    (s.variant.ledFcMax = 6 ∨ s.variant.ledFcMax = 7) ∧
    (encode (.buildControlLed fc scol ecol cyc)).reqsel = 0x023C ∧
    exec (.buildControlLed fc scol ecol cyc) s = .next { s with response := some (
      if fc.toNat < 1 ∨ s.variant.ledFcMax < fc.toNat then { status := .parameterOutOfRange, badField := some 0 }
      else { status := .ok, warn := some (decide (7 < scol.toNat ∨ 7 < ecol.toNat)), txLen := some 16,
             tx := some (frameOf s.devaddr 0x3C
               [fc, BitVec.ofNat 8 (scol.toNat % 8), BitVec.ofNat 8 (ecol.toNat % 8), cyc]) }) }

/-- R136: DeleteChar checks `ID` first and `COUNT` second; in range it builds a frame of 14 + `P_DEL_COUNT_WIDTH`
bytes with `COUNT` in that many bytes. -/
def Obligations.DeleteCharChecksIdThenCount : Prop :=
  ∀ (id count : Half) (s : State),
    (encode (.buildDeleteChar id count)).reqsel = 0x020C ∧
    exec (.buildDeleteChar id count) s = .next { s with response := some (
      if 100 ≤ id.toNat then { status := .parameterOutOfRange, badField := some 0 }
      else if count.toNat < 1 ∨ 5 < count.toNat then { status := .parameterOutOfRange, badField := some 1 }
      else { status := .ok, warn := some false, txLen := some (14 + s.variant.delCountBytes),
             tx := some (frameOf s.devaddr 0x0C (
               if s.variant.delCountBytes = 2 then [hi8 id, lo8 id, hi8 count, lo8 count]
               else [hi8 id, lo8 id, BitVec.ofNat 8 count.toNat])) }) }

/-- R146: what every built frame satisfies; the frame as built passes gates 1, 2, 3 and 5 and fails gate 4; with the packet
type of a response it is rejected for its checksum (C5); with the checksum recomputed it passes all six gates. -/
def Obligations.BuiltFramesRoundTripThroughValidate : Prop :=
  ∀ (i : Instr) (s t : State) (r : Response), isBuild i = true → exec i s = .next t → t.response = some r →
    r.status = .ok →
    ∃ tx, r.tx = some tx ∧ r.txLen = some tx.length ∧ 12 ≤ tx.length ∧ tx.length ≤ 17 ∧
      be16At tx 7 + 9 = tx.length ∧ be16At tx (tx.length - 2) = (checksumOf tx tx.length).toNat ∧
      (tx.drop 2).take 4 = s.devaddr.bytes ∧ tx[6]? = some 0x01 ∧
      gatePasses s.devaddr tx.length tx 1 ∧ gatePasses s.devaddr tx.length tx 2 ∧
      gatePasses s.devaddr tx.length tx 3 ∧ gatePasses s.devaddr tx.length tx 5 ∧
      exec (.validate tx.length tx) s = .next { s with response := some { status := .packetTypeMismatch } } ∧
      exec (.validate tx.length (tx.set 6 0x07)) s =
        .next { s with response := some { status := .checksumMismatch } } ∧
      exec (.validate tx.length (asResponse tx)) s = .next { s with response := some { status := .ok } }

/-! ## VALIDATE -/

/-- R150–R158: VALIDATE answers OK where all six gates pass, and the status of the first failing gate otherwise; it
changes no state. -/
def Obligations.ValidateReportsTheFirstFailingGate : Prop :=
  ∀ (len : Nat) (rx : List Byte) (s : State), len ≤ rx.length →
    (encode (.validate len rx)).reqsel = 0x0300 ∧
    (allGatesPass s.devaddr len rx →
      exec (.validate len rx) s = .next { s with response := some { status := .ok } }) ∧
    (∀ k, firstFailure s.devaddr len rx k →
      exec (.validate len rx) s = .next { s with response := some { status := gateError k } }) ∧
    (allGatesPass s.devaddr len rx ∨ ∃ k, firstFailure s.devaddr len rx k)

/-- R66: VALIDATE accepts exactly the response frames: header, the configured address, type 0x07, the length field, a
payload of at least one byte that it does not interpret, and the checksum. -/
def Obligations.ValidateAcceptsExactlyResponseFrames : Prop :=
  ∀ (len : Nat) (rx : List Byte) (s : State), len ≤ rx.length →
    (exec (.validate len rx) s = .next { s with response := some { status := .ok } } ↔
      ∃ p : List Byte, 1 ≤ p.length ∧ p.length + 2 < 65536 ∧ len = p.length + 11 ∧
        rx.take len = responseFrame s.devaddr p)

/-- R40, R41: no operation reads `RX` at an index from `LEN` on. -/
def Obligations.BytesPastLenAreNeverRead : Prop :=
  ∀ (len : Nat) (rx rx' : List Byte) (s : State), len ≤ rx.length → len ≤ rx'.length →
    rx.take len = rx'.take len →
    exec (.checksum len rx) s = exec (.checksum len rx') s ∧
    exec (.validate len rx) s = exec (.validate len rx') s ∧
    exec (.parseIndex len rx) s = exec (.parseIndex len rx') s

/-! ## PARSE_INDEX -/

/-- R170–R174: PARSE_INDEX reports what VALIDATE reports where that fails; FrameTooShort for a valid frame shorter
than 25 bytes; and otherwise the first 100 occupied slots in ascending order. It changes no state. -/
def Obligations.ParseIndexListsOccupiedSlots : Prop :=
  ∀ (len : Nat) (rx : List Byte) (s : State), len ≤ rx.length →
    (encode (.parseIndex len rx)).reqsel = 0x0400 ∧
    (∀ k, firstFailure s.devaddr len rx k →
      exec (.parseIndex len rx) s = .next { s with response := some { status := gateError k } }) ∧
    (allGatesPass s.devaddr len rx →
      exec (.parseIndex len rx) s = .next { s with response := some (
        if len < 25 then { status := .frameTooShort }
        else { status := .ok, slotCount := some (occupiedSlots rx).length, slots := some (occupiedSlots rx) }) })

/-- R173, R174: a slot list is strictly increasing, has at most 100 entries, each of 0..103 and each an occupied
slot, and leaves out an occupied slot only where it holds 100. -/
def Obligations.SlotListsAreAscendingAndCapped : Prop :=
  ∀ (len : Nat) (rx : List Byte) (s t : State) (r : Response) (slots : List Nat), len ≤ rx.length →
    exec (.parseIndex len rx) s = .next t → t.response = some r → r.slots = some slots →
    r.status = .ok ∧ r.slotCount = some slots.length ∧ slots.Pairwise (· < ·) ∧ slots.length ≤ 100 ∧
      (∀ n ∈ slots, n ≤ 103 ∧ slotOccupied rx n = true) ∧
      (∀ n, n ≤ 103 → slotOccupied rx n = true → n ∉ slots → slots.length = 100 ∧ ∀ m ∈ slots, m < n)

/-- R175: a valid index-table response with no bit set in `RX[10..22]` is a success with an empty list. -/
def Obligations.EmptyBitmapIsAnEmptyList : Prop :=
  ∀ (len : Nat) (rx : List Byte) (s : State), len ≤ rx.length → 25 ≤ len → allGatesPass s.devaddr len rx →
    (∀ i, 10 ≤ i → i ≤ 22 → rx[i]? = some 0x00) →
    exec (.parseIndex len rx) s =
      .next { s with response := some { status := .ok, slotCount := some 0, slots := some [] } }

/-- R177: two valid index-table responses, of whatever lengths and under whatever addresses, that agree on
`RX[10..22]` give the same slot list. -/
def Obligations.ParseIndexInterpretsOnlyTheBitmap : Prop :=
  ∀ (len len' : Nat) (rx rx' : List Byte) (s s' : State), len ≤ rx.length → len' ≤ rx'.length → 25 ≤ len →
    25 ≤ len' → allGatesPass s.devaddr len rx → allGatesPass s'.devaddr len' rx' →
    (∀ i, 10 ≤ i → i ≤ 22 → rx[i]? = rx'[i]?) →
    ∃ r : Response, r.status = .ok ∧ r.slots ≠ none ∧
      exec (.parseIndex len rx) s = .next { s with response := some r } ∧
      exec (.parseIndex len' rx') s' = .next { s' with response := some r }

/-! ## SET_ADDR and the address -/

/-- R190: SET_ADDR loads all four bytes of `DEVADDR` at once and answers OK, for every address. -/
def Obligations.SetAddrLoadsAllFourBytes : Prop :=
  ∀ (n : DevAddr) (s : State),
    (encode (.setAddr n)).reqsel = 0x0500 ∧
    exec (.setAddr n) s = .next { s with devaddr := n, response := some { status := .ok } } ∧
    addrValue n = n.a0.toNat * 2 ^ 24 + n.a1.toNat * 2 ^ 16 + n.a2.toNat * 2 ^ 8 + n.a3.toNat

/-- Every operation but SET_ADDR leaves `DEVADDR` as it is, and every operation changes nothing but `DEVADDR` and its
own response (R20, R28, R29). -/
def Obligations.OnlySetAddrWritesTheAddress : Prop :=
  ∀ (i : Instr) (s t : State), exec i s = .next t →
    ∃ r, t = { s with response := some r,
                      devaddr := match i with
                        | .setAddr n => n
                        | _ => s.devaddr }

/-- R191: after a SET_ADDR a built frame carries the new address, gate 3 compares with it, and CHECKSUM answers as
before. -/
def Obligations.LaterOperationsUseTheNewAddress : Prop :=
  ∀ (n : DevAddr) (s t : State), exec (.setAddr n) s = .next t →
    (∀ (i : Instr) (u : State) (r : Response) (tx : List Byte), isBuild i = true → exec i t = .next u →
      u.response = some r → r.tx = some tx → (tx.drop 2).take 4 = n.bytes) ∧
    (∀ (len : Nat) (rx : List Byte), len ≤ rx.length → 12 ≤ len → rx.take 2 = [0xEF, 0x01] →
      (exec (.validate len rx) t = .next { t with response := some { status := .addressMismatch } } ↔
        (rx.drop 2).take 4 ≠ n.bytes)) ∧
    (∀ (len : Nat) (rx : List Byte), len ≤ rx.length →
      ∃ r, exec (.checksum len rx) s = .next { s with response := some r } ∧
        exec (.checksum len rx) t = .next { t with response := some r })

/-- R48, R20: along every run the address is the one the last SET_ADDR or reset among the inputs taken left, inputs
are taken in order, and the parameters never change. -/
def Obligations.RunsObserveTheLastAddressWritten : Prop :=
  ∀ (k : Nat) (s t : State), Host.Core.run Sys2Proof.core k s = .next t →
    t.devaddr = addrAfter s.variant s.devaddr (s.pending.take k) ∧ t.pending = s.pending.drop k ∧
      t.variant = s.variant

/-- R48, R29: along every run the responses sent are, in order, those of the requests taken, each the reply of its
operation under the address in force when it was reached, and each to the host that asked: operations are atomic and
serial in the order of acceptance. -/
def Obligations.RunsAnswerRequestsSerially : Prop :=
  ∀ (k : Nat) (s t : State), Host.Core.run Sys2Proof.core k s = .next t →
    t.delivered = s.delivered ++ repliesTo s.variant s.devaddr (s.pending.take k)

/-- R205: along every run the marks are, in order, those of the refused requests among the inputs taken; marks that
were there stay, whatever is requested after them and whether or not the block is reset. (The form of the marks is the
model's, assumption log 5; so are the refusal of a surplus operand field and of a `COUNT` wider than its field,
assumption log 6, 7, and that a request cut by a reset leaves no mark, assumption log 16.) -/
def Obligations.RunsKeepEveryRefusalMark : Prop :=
  ∀ (k : Nat) (s t : State), Host.Core.run Sys2Proof.core k s = .next t →
    t.refusals = s.refusals ++ marksOf s.variant (s.pending.take k)

/-- R203, R205, R207, R215: the block never stops. From every state, whatever is requested, well-formed or refused, a
run of any number of steps answers a next state. (What the model refuses besides R72's requests, and that a refusal is
a mark in the state, are its choices, assumption log 5, 6, 7.) -/
def Obligations.EveryRunGoesOn : Prop :=
  ∀ (k : Nat) (s : State), ∃ t, Host.Core.run Sys2Proof.core k s = .next t

/-- R48, R205, R213: for every interleaving of the hosts' request streams, a run takes all of it, and then each host
has received exactly one response for each of its requests that the model does not refuse, and left exactly one mark
for each that it does. (The model refuses what R72 lists and, by its own choice, a surplus operand field and a `COUNT`
wider than its field, assumption log 6, 7; the form of the mark and the leaving of cut requests out of the streams are
its choices too, assumption log 5, 16.) -/
def Obligations.EveryHostIsAnsweredUnderEveryInterleaving : Prop :=
  ∀ (streams : Nat → List Request) (s : State), interleaves streams s.pending → s.delivered = [] →
    s.refusals = [] →
    ∃ t, Host.Core.run Sys2Proof.core s.pending.length s = .next t ∧ t.pending = [] ∧
      ∀ h, (t.delivered.filter fun d => d.host == h).length = ((streams h).filter (accepted s.variant)).length ∧
        (t.refusals.filter fun m => m.host == h).length =
          ((streams h).filter fun r => !accepted s.variant r).length

/-- R29: the result of an operation is a function of its request and of `DEVADDR` alone (on one instance): two states
that agree on these give the same response and the same address after it. -/
def Obligations.ResultsDependOnRequestAndAddressOnly : Prop :=
  ∀ (i : Instr) (s s' t : State), s.devaddr = s'.devaddr → s.variant = s'.variant → exec i s = .next t →
    ∃ t', exec i s' = .next t' ∧ t'.response = t.response ∧ t'.devaddr = t.devaddr

/-! ## Statuses, warnings, absent fields -/

/-- R202: an operation that raises a status leaves the state as it was, and its response holds the status and only
the information of R200; SET_ADDR, the one operation that writes the address, never raises one. -/
def Obligations.FailingOperationsWriteNothing : Prop :=
  ∀ (i : Instr) (s t : State) (r : Response), exec i s = .next t → t.response = some r → r.status ≠ .ok →
    t = { s with response := some r } ∧ r.warn = none ∧ r.txLen = none ∧ r.tx = none ∧ r.cksum = none ∧
      r.slotCount = none ∧ r.slots = none ∧ (r.badField ≠ none ↔ r.status = .parameterOutOfRange) ∧
      i.operation ≠ .setAddr

/-- The statuses each operation can report, by the table of R200. -/
def Obligations.EachOperationReportsItsOwnStatuses : Prop :=
  ∀ (i : Instr) (s t : State) (r : Response), exec i s = .next t → t.response = some r →
    match i.operation with
    | .checksum => r.status = .ok ∨ r.status = .checksumInputTooShort
    | .buildAutoEnroll | .buildControlLed | .buildDeleteChar => r.status = .ok ∨ r.status = .parameterOutOfRange
    | .validate | .parseIndex => r.status ≠ .parameterOutOfRange ∧ r.status ≠ .checksumInputTooShort
    | .buildAutoIdentify | .buildEmpty | .buildCancel | .buildSleep | .buildReadIndexTable | .setAddr =>
      r.status = .ok

/-- R200: the 4-bit numbers of the statuses, and the reserved numbers, which are a fault to read. -/
def Obligations.StatusNumbersAreThoseOfTheTable : Prop :=
  (([.ok, .frameTooShort, .headerMismatch, .addressMismatch, .packetTypeMismatch, .lengthMismatch,
    .checksumMismatch, .parameterOutOfRange, .checksumInputTooShort] : List Status).map fun st =>
      st.code.toNat) = [0, 1, 2, 3, 4, 5, 6, 7, 8] ∧
  (∀ st : Status, Status.ofCode st.code = .ok st) ∧
  (∀ c : BitVec 4, 9 ≤ c.toNat → Status.ofCode c = .error (.reservedStatus c))

/-- R201, R114: a warning comes only with an OK response of BUILD_CONTROLLED that masked a colour. -/
def Obligations.WarningsComeOnlyFromMaskedColours : Prop :=
  ∀ (i : Instr) (s t : State) (r : Response), exec i s = .next t → t.response = some r → r.warn = some true →
    r.status = .ok ∧ ∃ fc scol ecol cyc, i = .buildControlLed fc scol ecol cyc ∧
      (7 < scol.toNat ∨ 7 < ecol.toNat)

/-- R26: reading a field that a response does not have is a fault, and reading one that it has gives its value. -/
def Obligations.AbsentResponseFieldsFault : Prop :=
  ∀ r : Response,
    (r.tx = none → r.readTx = .error .absentResponseField) ∧ (∀ x, r.tx = some x → r.readTx = .ok x) ∧
    (r.txLen = none → r.readTxLen = .error .absentResponseField) ∧
    (∀ x, r.txLen = some x → r.readTxLen = .ok x) ∧
    (r.warn = none → r.readWarn = .error .absentResponseField) ∧ (∀ x, r.warn = some x → r.readWarn = .ok x) ∧
    (r.badField = none → r.readBadField = .error .absentResponseField) ∧
    (∀ x, r.badField = some x → r.readBadField = .ok x) ∧
    (r.cksum = none → r.readCksum = .error .absentResponseField) ∧
    (∀ x, r.cksum = some x → r.readCksum = .ok x) ∧
    (r.slotCount = none → r.readSlotCount = .error .absentResponseField) ∧
    (∀ x, r.slotCount = some x → r.readSlotCount = .ok x) ∧
    (r.slots = none → r.readSlots = .error .absentResponseField) ∧ (∀ x, r.slots = some x → r.readSlots = .ok x)

/-- R41, R42, R215: no well-formed instruction reads outside `RX` or writes outside `TX`: it always answers a next
state, in every state. -/
def Obligations.WellFormedInstructionsNeverFault : Prop :=
  ∀ (i : Instr) (s : State), wellFormed s.variant i = true → ∃ t, exec i s = .next t

/-! ## The invariant -/

/-- Good states stay good: no response stays in the block between steps, and every response sent has exactly the
fields of R25, every frame the form of R146, every slot list that of R173 and R174. -/
def Obligations.GoodStatesStayGood : Prop :=
  ∀ s t : State, s.good → step s = .next t → t.good

/-- The state after reset is good. -/
def Obligations.ResetStateIsGood : Prop := State.reset.good
end

