-- ==== Sys2Proof/Laws/Decode.lean ====
section
/-! SUPPORT. The parts of the decoder, each said once. -/

namespace Sys2Proof

/-- Each operation's `REQSEL` selects it (R62). -/
@[simp] theorem selectOperation_reqsel (o : Operation) : selectOperation o.reqsel = .ok o := by
  cases o <;> decide

/-- A selected operation has the `REQSEL` that selected it: all 16 bits match (R62). -/
theorem selectOperation_ok {w : Half} {o : Operation} (h : selectOperation w = .ok o) : o.reqsel = w := by
  unfold selectOperation at h
  split at h
  · rename_i o' hf
    have := List.find?_some hf
    simp only [Except.ok.injEq] at h
    subst h
    simpa using this
  · split at h
    · cases h
    · split at h <;> cases h

/-- The operands of an instruction are taken back from its own fields. -/
@[simp] theorem takeOperands_fields (i : Instr) : takeOperands i.operation i.fields = some i := by
  cases i <;> rfl

/-- Taking operands gives an instruction of the operation asked for. -/
theorem takeOperands_operation {o : Operation} {f : OperandFields} {i : Instr} (h : takeOperands o f = some i) :
    i.operation = o := by
  cases o <;> simp only [takeOperands, Option.bind_eq_some_iff, Option.map_eq_some_iff, Option.some.injEq] at h
  case checksum | validate | parseIndex | buildDeleteChar => obtain ⟨_, _, _, _, rfl⟩ := h; rfl
  case buildEmpty | buildCancel | buildSleep => subst h; rfl
  case buildReadIndexTable | setAddr => obtain ⟨_, _, rfl⟩ := h; rfl
  case buildAutoEnroll | buildAutoIdentify => obtain ⟨_, _, _, _, _, _, rfl⟩ := h; rfl
  case buildControlLed => obtain ⟨_, _, _, _, _, _, _, _, rfl⟩ := h; rfl

/-- The bounds of R72 on a receive buffer refuse exactly what is not well-formed. -/
theorem rxBounds_eq_none_iff (v : Variant) (len : Nat) (rx : List Byte) :
    rxBounds v len rx = none ↔ wellFormedRx v len rx = true := by
  simp only [rxBounds, wellFormedRx, Bool.and_eq_true, decide_eq_true_eq]
  split
  · simp; omega
  · split <;> simp <;> omega

/-- The bounds of R24 and R72 refuse exactly the instructions that are not well-formed. -/
theorem operandBounds_eq_none_iff (v : Variant) (i : Instr) :
    operandBounds v i = none ↔ wellFormed v i = true := by
  cases i <;> simp [operandBounds, wellFormed, rxBounds_eq_none_iff]

/-- What the decoder accepts, in its parts: the operation selected, its operands taken, no other field given, and
the bounds kept. -/
theorem decode_ok_iff (v : Variant) (r : Request) (i : Instr) :
    decode v r = .ok i ↔ selectOperation r.reqsel = .ok i.operation ∧ r.fields = i.fields ∧
      operandBounds v i = none := by
  constructor
  · intro h
    unfold decode at h
    split at h
    · cases h
    · rename_i o ho
      split at h
      · cases h
      · rename_i i' hi
        split at h
        · rename_i hf
          split at h
          · cases h
          · rename_i hb
            cases h
            exact ⟨by rw [takeOperands_operation hi]; exact ho, hf, hb⟩
        · cases h
  · rintro ⟨ho, hf, hb⟩
    simp [decode, ho, hf, hb]

end Sys2Proof
end

