-- ==== Sys2Proof/Laws/State.lean ====
section
/-! SUPPORT. One lemma per field and update of `State`, so that no later proof unfolds an update. -/

namespace Sys2Proof.Machine

@[simp] theorem State.withResponse_devaddr (s : State) (r : Response) : (s.withResponse r).devaddr = s.devaddr := rfl
@[simp] theorem State.withResponse_variant (s : State) (r : Response) : (s.withResponse r).variant = s.variant := rfl
@[simp] theorem State.withResponse_pending (s : State) (r : Response) : (s.withResponse r).pending = s.pending := rfl
@[simp] theorem State.withResponse_response (s : State) (r : Response) : (s.withResponse r).response = some r := rfl
@[simp] theorem State.withResponse_delivered (s : State) (r : Response) : (s.withResponse r).delivered = s.delivered := rfl
@[simp] theorem State.withResponse_refusals (s : State) (r : Response) : (s.withResponse r).refusals = s.refusals := rfl

@[simp] theorem State.withAddr_devaddr (s : State) (a : DevAddr) : (s.withAddr a).devaddr = a := rfl
@[simp] theorem State.withAddr_variant (s : State) (a : DevAddr) : (s.withAddr a).variant = s.variant := rfl
@[simp] theorem State.withAddr_pending (s : State) (a : DevAddr) : (s.withAddr a).pending = s.pending := rfl
@[simp] theorem State.withAddr_response (s : State) (a : DevAddr) : (s.withAddr a).response = s.response := rfl
@[simp] theorem State.withAddr_delivered (s : State) (a : DevAddr) : (s.withAddr a).delivered = s.delivered := rfl
@[simp] theorem State.withAddr_refusals (s : State) (a : DevAddr) : (s.withAddr a).refusals = s.refusals := rfl

@[simp] theorem State.withPending_devaddr (s : State) (es : List Event) : (s.withPending es).devaddr = s.devaddr := rfl
@[simp] theorem State.withPending_variant (s : State) (es : List Event) : (s.withPending es).variant = s.variant := rfl
@[simp] theorem State.withPending_pending (s : State) (es : List Event) : (s.withPending es).pending = es := rfl
@[simp] theorem State.withPending_response (s : State) (es : List Event) : (s.withPending es).response = s.response := rfl
@[simp] theorem State.withPending_delivered (s : State) (es : List Event) : (s.withPending es).delivered = s.delivered := rfl
@[simp] theorem State.withPending_refusals (s : State) (es : List Event) : (s.withPending es).refusals = s.refusals := rfl

@[simp] theorem State.withDelivery_devaddr (s : State) (h : Nat) (r : Response) : (s.withDelivery h r).devaddr = s.devaddr := rfl
@[simp] theorem State.withDelivery_variant (s : State) (h : Nat) (r : Response) : (s.withDelivery h r).variant = s.variant := rfl
@[simp] theorem State.withDelivery_pending (s : State) (h : Nat) (r : Response) : (s.withDelivery h r).pending = s.pending := rfl
@[simp] theorem State.withDelivery_response (s : State) (h : Nat) (r : Response) : (s.withDelivery h r).response = none := rfl
@[simp] theorem State.withDelivery_delivered (s : State) (h : Nat) (r : Response) : (s.withDelivery h r).delivered = s.delivered ++ [{ host := h, response := r }] := rfl
@[simp] theorem State.withDelivery_refusals (s : State) (h : Nat) (r : Response) : (s.withDelivery h r).refusals = s.refusals := rfl

@[simp] theorem State.withRefusal_devaddr (s : State) (h : Nat) (why : DecodeError) : (s.withRefusal h why).devaddr = s.devaddr := rfl
@[simp] theorem State.withRefusal_variant (s : State) (h : Nat) (why : DecodeError) : (s.withRefusal h why).variant = s.variant := rfl
@[simp] theorem State.withRefusal_pending (s : State) (h : Nat) (why : DecodeError) : (s.withRefusal h why).pending = s.pending := rfl
@[simp] theorem State.withRefusal_response (s : State) (h : Nat) (why : DecodeError) : (s.withRefusal h why).response = s.response := rfl
@[simp] theorem State.withRefusal_delivered (s : State) (h : Nat) (why : DecodeError) : (s.withRefusal h why).delivered = s.delivered := rfl
@[simp] theorem State.withRefusal_refusals (s : State) (h : Nat) (why : DecodeError) : (s.withRefusal h why).refusals = s.refusals ++ [{ host := h, why := why }] := rfl

@[simp] theorem resetBlock_devaddr (s : State) : (resetBlock s).devaddr = resetAddr := rfl
@[simp] theorem resetBlock_variant (s : State) : (resetBlock s).variant = s.variant := rfl
@[simp] theorem resetBlock_pending (s : State) : (resetBlock s).pending = s.pending := rfl
@[simp] theorem resetBlock_response (s : State) : (resetBlock s).response = s.response := rfl
@[simp] theorem resetBlock_delivered (s : State) : (resetBlock s).delivered = s.delivered := rfl
@[simp] theorem resetBlock_refusals (s : State) : (resetBlock s).refusals = s.refusals := rfl

@[simp] theorem State.reset_devaddr : State.reset.devaddr = resetAddr := rfl
@[simp] theorem State.reset_variant : State.reset.variant = Config.variant := rfl
@[simp] theorem State.reset_pending : State.reset.pending = [] := rfl
@[simp] theorem State.reset_response : State.reset.response = none := rfl
@[simp] theorem State.reset_delivered : State.reset.delivered = [] := rfl
@[simp] theorem State.reset_refusals : State.reset.refusals = [] := rfl

/-- Two states are equal where their fields are. -/
theorem State.ext_fields {s t : State} (ha : s.devaddr = t.devaddr) (hv : s.variant = t.variant)
    (hp : s.pending = t.pending) (hr : s.response = t.response) (hd : s.delivered = t.delivered)
    (hm : s.refusals = t.refusals) : s = t := by
  cases s; cases t; simp_all

end Sys2Proof.Machine
end

