-- ==== Sys2Proof/Laws/Ops.lean ====
section
/-! SUPPORT. For each shared operation, what it answers, said once: reading `RX`, writing `TX`, the checksum, frame
assembly, answering and delivering. Later proofs cite these and do not unfold the operations. -/

namespace Sys2Proof.Machine

/-! ## Byte order -/

@[simp] theorem beBytes_length (n v : Nat) : (beBytes n v).length = n := by
  induction n with
  | zero => rfl
  | succ n ih => simp [beBytes, ih]

theorem byteAt_lt (b : List Byte) (i : Nat) : byteAt b i < 256 := (b.getD i 0).isLt

theorem byteAt_of_lt {b : List Byte} {i : Nat} (h : i < b.length) : byteAt b i = b[i].toNat := by
  simp [byteAt, List.getD_eq_getElem?_getD, List.getElem?_eq_getElem h]

theorem getElem?_eq_some_iff_byteAt {b : List Byte} {i : Nat} (h : i < b.length) (v : Byte) :
    b[i]? = some v ↔ byteAt b i = v.toNat := by
  rw [byteAt_of_lt h, List.getElem?_eq_getElem h, Option.some.injEq, BitVec.toNat_inj]

/-- The first byte of a big-endian value is its most significant. -/
theorem drop_take_succ {b : List Byte} {i n : Nat} (h : i < b.length) :
    (b.drop i).take (n + 1) = b[i] :: (b.drop (i + 1)).take n := by
  rw [List.drop_eq_getElem_cons h, List.take_succ_cons]

theorem addrValue_eq (a : DevAddr) :
    addrValue a = a.a0.toNat * 2 ^ 24 + a.a1.toNat * 2 ^ 16 + a.a2.toNat * 2 ^ 8 + a.a3.toNat := by
  simp [addrValue, beValue, DevAddr.bytes]; omega

theorem addrValue_lt (a : DevAddr) : addrValue a < 256 ^ 4 := by
  rw [addrValue_eq]
  have := a.a0.isLt; have := a.a1.isLt; have := a.a2.isLt; have := a.a3.isLt
  omega

theorem beBytes_addrValue (a : DevAddr) : beBytes 4 (addrValue a) = a.bytes := by
  have h0 := a.a0.isLt; have h1 := a.a1.isLt; have h2 := a.a2.isLt; have h3 := a.a3.isLt
  simp only [beBytes, DevAddr.bytes, addrValue_eq, List.cons.injEq, and_true]
  refine ⟨?_, ?_, ?_, ?_⟩ <;> apply BitVec.eq_of_toNat_eq <;> simp only [BitVec.toNat_ofNat] <;> omega

/-! ## Reading `RX` -/

/-- A read inside the frame gives the big-endian value of its bytes (R41). -/
theorem memRead_ok {rx : List Byte} {len addr n : Nat} (hlen : len ≤ rx.length) (h : addr + n ≤ len) :
    memRead rx len addr n = .ok (beValue ((rx.drop addr).take n)) := by
  rw [memRead, if_pos ⟨h, h.trans hlen⟩]

/-- A read that runs past `LEN` is a fault and gives no value (R41, R215). -/
theorem memRead_fault {rx : List Byte} {len addr n : Nat} (h : len < addr + n) :
    memRead rx len addr n = .error (.rxReadOutOfBounds addr n len) := by
  rw [memRead, if_neg (by omega)]

theorem memRead_one {rx : List Byte} {len addr : Nat} (hlen : len ≤ rx.length) (h : addr + 1 ≤ len) :
    memRead rx len addr 1 = .ok (byteAt rx addr) := by
  rw [memRead_ok hlen h, drop_take_succ (by omega), byteAt_of_lt (by omega)]
  simp [beValue]

theorem memRead_two {rx : List Byte} {len addr : Nat} (hlen : len ≤ rx.length) (h : addr + 2 ≤ len) :
    memRead rx len addr 2 = .ok (be16At rx addr) := by
  rw [memRead_ok hlen h, drop_take_succ (by omega), drop_take_succ (by omega), be16At,
    byteAt_of_lt (by omega), byteAt_of_lt (by omega)]
  simp [beValue]

theorem memRead_four {rx : List Byte} {len addr : Nat} (hlen : len ≤ rx.length) (h : addr + 4 ≤ len) :
    memRead rx len addr 4 = .ok (byteAt rx addr * 2 ^ 24 + byteAt rx (addr + 1) * 2 ^ 16 +
      byteAt rx (addr + 2) * 2 ^ 8 + byteAt rx (addr + 3)) := by
  rw [memRead_ok hlen h, drop_take_succ (by omega), drop_take_succ (by omega), drop_take_succ (by omega),
    drop_take_succ (by omega), byteAt_of_lt (by omega), byteAt_of_lt (by omega), byteAt_of_lt (by omega),
    byteAt_of_lt (by omega)]
  simp [beValue, Nat.add_assoc]; omega

/-! ## Checksum -/

theorem byteSum_cons (b : Byte) (bs : List Byte) : byteSum (b :: bs) = b.toNat + byteSum bs := by
  simp [byteSum]

theorem byteSum_append (bs cs : List Byte) : byteSum (bs ++ cs) = byteSum bs + byteSum cs := by
  simp [byteSum]

/-- The loop adds the bytes it reads, whatever reads them. -/
theorem ckLoop_ok (read : Nat → Except Fault Nat) (bs : List Byte) (i s : Nat)
    (h : ∀ j (hj : j < bs.length), read (i + j) = .ok bs[j].toNat) :
    ckLoop read bs.length i s = .ok (s + byteSum bs) := by
  induction bs generalizing i s with
  | nil => simp [ckLoop, byteSum]
  | cons b bs ih =>
    have h0 := h 0 (by simp)
    simp only [Nat.add_zero, List.getElem_cons_zero] at h0
    have hrest : ∀ j (hj : j < bs.length), read (i + 1 + j) = .ok bs[j].toNat := fun j hj => by
      have := h (j + 1) (by simpa using hj)
      simpa [Nat.add_assoc, Nat.add_comm 1 j] using this
    simp only [List.length_cons, ckLoop, h0]
    rw [ih (i + 1) (s + b.toNat) hrest, byteSum_cons, Nat.add_assoc]

/-- `CK` of `L > 8` bytes, whatever reads them, is the sum of those at 6..`L-3` modulo 2^16 (R100). -/
theorem ck_ok (read : Nat → Except Fault Nat) (bs : List Byte) (len : Nat) (h8 : 8 < len)
    (hbs : bs.length = len - 8) (h : ∀ j (hj : j < bs.length), read (6 + j) = .ok bs[j].toNat) :
    ck read len = .ok (BitVec.ofNat 16 (byteSum bs)) := by
  rw [ck, if_neg (by omega), ← hbs, checksumStart, ckLoop_ok read bs 6 0 h, Nat.zero_add]

/-- `CK(RX, LEN)` is the declarative checksum (R100). -/
theorem ckRx_ok {rx : List Byte} {len : Nat} (hlen : len ≤ rx.length) (h8 : 8 < len) :
    ckRx rx len = .ok (checksumOf rx len) := by
  refine ck_ok _ ((rx.drop 6).take (len - 8)) len h8 ?_ fun j hj => ?_
  · simp; omega
  · have hj' : j < len - 8 := by simp at hj; omega
    rw [memRead_one hlen (by omega), byteAt_of_lt (by omega)]
    simp

/-! ## Writing `TX` and frame assembly -/

/-- A transmit buffer filled up to `pre`, with `m` indices still unwritten. -/
def filled (pre : List Byte) (m : Nat) : TxBuffer := pre.map some ++ List.replicate m none

theorem txAlloc_eq_filled (n : Nat) : txAlloc n = filled [] n := by simp [txAlloc, filled]

/-- A write at the first unwritten index appends the big-endian bytes (R42). -/
theorem memWrite_filled {pre : List Byte} {m n v addr : Nat} (ha : addr = pre.length) (hn : n ≤ m)
    (hv : v < 256 ^ n) : memWrite (filled pre m) addr n v = .ok (filled (pre ++ beBytes n v) (m - n)) := by
  subst ha
  have hlen : (pre.map some : TxBuffer).length = pre.length := by simp
  have hdrop : (filled pre m).drop pre.length = List.replicate m none := by
    rw [filled, ← hlen, List.drop_left]
  have hfresh : (((filled pre m).drop pre.length).take n).any Option.isSome = false := by
    rw [hdrop, List.take_replicate]; simp
  have hdrop' : (filled pre m).drop (pre.length + n) = List.replicate (m - n) none := by
    rw [← List.drop_drop, hdrop, List.drop_replicate]
  rw [memWrite, if_neg (by simp [filled]; omega), if_neg (by omega), hfresh, hdrop']
  simp [filled]

/-- The payload loop appends the payload (R111). -/
theorem writePayload_filled (p pre : List Byte) (m addr : Nat) (ha : addr = pre.length) (hp : p.length ≤ m) :
    writePayload (filled pre m) addr p = .ok (filled (pre ++ p) (m - p.length)) := by
  induction p generalizing pre m addr with
  | nil => simp [writePayload]
  | cons b p ih =>
    simp only [List.length_cons] at hp
    have hb : beBytes 1 b.toNat = [b] := by simp [beBytes]
    rw [writePayload, memWrite_filled ha (by omega) (by simpa using b.isLt), hb]
    simp only
    rw [ih (pre ++ [b]) (m - 1) (addr + 1) (by simp [ha]) (by omega)]
    simp [Nat.sub_sub, Nat.add_comm]

theorem txRead_filled {pre : List Byte} {m i : Nat} (h : i < pre.length) :
    txRead (filled pre m) i = .ok pre[i].toNat := by
  have : (filled pre m)[i]? = some (some pre[i]) := by
    rw [filled, List.getElem?_append_left (by simpa using h)]; simp [h]
  rw [txRead, this]

theorem txFinish_filled (bs : List Byte) : txFinish (filled bs 0) = .ok bs := by
  induction bs with
  | nil => rfl
  | cons b bs ih =>
    have : filled (b :: bs) 0 = some b :: filled bs 0 := by simp [filled]
    rw [this, txFinish, ih]

/-- `EmitFrame` gives the frame of R63 and never faults, for every payload whose length the Payload Length field
can hold (R111). -/
theorem emitFrame_ok (a : DevAddr) (op : Byte) (p : List Byte) (w : Bool) (hp : p.length + 3 < 65536) :
    emitFrame a op p w = .ok (respondFrame (12 + p.length) (frameOf a op p) w) := by
  have hbody : (frameBody a op p).length = 10 + p.length := by
    simp [frameBody, DevAddr.bytes]; omega
  have hc : ck (txRead (filled (frameBody a op p) 2)) (12 + p.length) =
      .ok (BitVec.ofNat 16 (byteSum ((frameBody a op p).drop 6))) := by
    refine ck_ok _ _ _ (by omega) (by simp [hbody]; omega) fun j hj => ?_
    rw [txRead_filled (by simp at hj; omega)]
    simp
  have hw : ∀ pre : List Byte, ∀ m n v addr, addr = pre.length → n ≤ m → v < 256 ^ n →
      memWrite (filled pre m) addr n v = .ok (filled (pre ++ beBytes n v) (m - n)) :=
    fun _ _ _ _ _ h1 h2 h3 => memWrite_filled h1 h2 h3
  simp only [emitFrame, frameOverhead, txAlloc_eq_filled]
  rw [hw _ _ 2 headerWord 0 rfl (by omega) (by decide)]
  simp only [bind, Except.bind]
  rw [hw _ _ 4 (addrValue a) 2 (by simp) (by omega) (addrValue_lt a)]
  simp only
  rw [hw _ _ 1 packetCommand 6 (by simp) (by omega) (by decide)]
  simp only
  rw [hw _ _ 2 (p.length + 3) 7 (by simp) (by omega) (by omega)]
  simp only
  rw [hw _ _ 1 op.toNat 9 (by simp) (by omega) (by simpa using op.isLt)]
  simp only
  rw [writePayload_filled p _ _ 10 (by simp) (by omega)]
  have hpre : ([] ++ beBytes 2 headerWord ++ beBytes 4 (addrValue a) ++ beBytes 1 packetCommand ++
      beBytes 2 (p.length + 3) ++ beBytes 1 op.toNat ++ p) = frameBody a op p := by
    rw [beBytes_addrValue]
    have h1 : beBytes 2 headerWord = [0xEF, 0x01] := by decide
    have h2 : beBytes 1 packetCommand = [0x01] := by decide
    have h3 : beBytes 1 op.toNat = [op] := by simp [beBytes]
    rw [h1, h2, h3, frameBody]; simp
  rw [hpre, show 12 + p.length - 2 - 4 - 1 - 2 - 1 - p.length = 2 by omega]
  simp only
  rw [hc]
  simp only
  rw [hw _ _ 2 _ (12 + p.length - 2) (by omega) (by omega) (BitVec.isLt _)]
  simp only
  rw [show (2 - 2 : Nat) = 0 from rfl, txFinish_filled]
  simp [frameOf, pure, Except.pure]

/-! ## Answering and delivering -/

@[simp] theorem answer_ok (s : State) (r : Response) : answer s (.ok r) = .next (s.withResponse r) := rfl

@[simp] theorem answer_error (s : State) (f : Fault) : answer s (.error f) = .fault f := rfl

/-- `answer` gives a next state exactly where a response was made, and then only the response changes. -/
theorem answer_eq_next_iff {s t : State} {r : Except Fault Response} :
    answer s r = .next t ↔ ∃ resp, r = .ok resp ∧ t = s.withResponse resp := by
  cases r with
  | ok resp => simp [eq_comm]
  | error f => simp

@[simp] theorem deliver_withResponse (h : Nat) (s : State) (r : Response) :
    deliver h (s.withResponse r) = s.withDelivery h r := rfl

/-- Delivering keeps everything but the response and the list of deliveries. -/
theorem deliver_frame (h : Nat) (s : State) :
    (deliver h s).devaddr = s.devaddr ∧ (deliver h s).variant = s.variant ∧
      (deliver h s).pending = s.pending ∧ (deliver h s).response = none ∧
      (deliver h s).refusals = s.refusals := by
  unfold deliver
  split
  · simp
  · simp_all

/-- Refusing keeps everything but the list of marks, which has one mark more (R205). -/
theorem refuse_eq (h : Nat) (why : DecodeError) (s : State) :
    refuse h why s = { s with refusals := s.refusals ++ [{ host := h, why := why }] } := rfl

/-- What delivering adds: the response that stood in the state, if any. -/
theorem deliver_delivered (h : Nat) (s : State) :
    (deliver h s).delivered =
      s.delivered ++ (s.response.toList.map fun r => { host := h, response := r }) := by
  unfold deliver
  split <;> simp_all

end Sys2Proof.Machine
end

