-- ==== Sys2Proof/Laws/Frames.lean ====
section
/-! SUPPORT. The declarative frames written out byte by byte, and their fields: what proofs about built and received
frames cite instead of unfolding `frameOf`, `responseFrame` and `checksumOf`. -/

namespace Sys2Proof.Machine

theorem beBytes_two (v : Nat) : beBytes 2 v = [BitVec.ofNat 8 (v / 256), BitVec.ofNat 8 v] := by simp [beBytes]

theorem be16At_beBytes {v : Nat} (h : v < 65536) : be16At (beBytes 2 v) 0 = v := by
  simp [be16At, byteAt, beBytes_two]; omega

theorem byteAt_append_right (xs ys : List Byte) (i : Nat) : byteAt (xs ++ ys) (xs.length + i) = byteAt ys i := by
  simp only [byteAt, List.getD_eq_getElem?_getD]
  rw [List.getElem?_append_right (by omega)]; simp

theorem be16At_append_right (xs ys : List Byte) (i : Nat) :
    be16At (xs ++ ys) (xs.length + i) = be16At ys i := by
  simp only [be16At, Nat.add_assoc, byteAt_append_right]

theorem byteAt_take {rx : List Byte} {len i : Nat} (h : i < len) : byteAt (rx.take len) i = byteAt rx i := by
  simp [byteAt, List.getD_eq_getElem?_getD, h]

/-- The checksum reads no byte from `LEN` on. -/
theorem checksumOf_take {rx : List Byte} {len : Nat} (h8 : 8 < len) :
    checksumOf (rx.take len) len = checksumOf rx len := by
  simp only [checksumOf]
  rw [List.drop_take, List.take_take, show min (len - 8) (len - 6) = len - 8 by omega]

/-- The bytes of a command frame that its checksum covers: type, Payload Length, opcode, payload (R63). -/
def coveredBytes (op : Byte) (p : List Byte) : List Byte :=
  [0x01, BitVec.ofNat 8 ((p.length + 3) / 256), BitVec.ofNat 8 (p.length + 3), op] ++ p

/-- A command frame byte by byte (R63). -/
theorem frameOf_eq (a : DevAddr) (op : Byte) (p : List Byte) :
    frameOf a op p = [0xEF, 0x01, a.a0, a.a1, a.a2, a.a3] ++ coveredBytes op p ++
      beBytes 2 (byteSum (coveredBytes op p) % 65536) := by
  simp [frameOf, frameBody, coveredBytes, beBytes_two, DevAddr.bytes]

theorem frameOf_length (a : DevAddr) (op : Byte) (p : List Byte) : (frameOf a op p).length = 12 + p.length := by
  rw [frameOf_eq]; simp [coveredBytes]; omega

/-- A response frame byte by byte (R66). -/
theorem responseFrame_eq (a : DevAddr) (p : List Byte) :
    responseFrame a p = [0xEF, 0x01, a.a0, a.a1, a.a2, a.a3, 0x07, BitVec.ofNat 8 ((p.length + 2) / 256),
      BitVec.ofNat 8 (p.length + 2)] ++ p ++ beBytes 2 (byteSum ([0x07, BitVec.ofNat 8 ((p.length + 2) / 256),
      BitVec.ofNat 8 (p.length + 2)] ++ p) % 65536) := by
  simp [responseFrame, beBytes_two, DevAddr.bytes]

end Sys2Proof.Machine
end

