-- ==== Sys2Proof/Laws/PerInstr.lean ====
section
/-! SUPPORT. The per-instruction family `EncodingSelects`: the `REQSEL` of an instruction's request selects its
operation and no other, and its operands are read back from exactly its own fields (R24, R62). -/

namespace Sys2Proof.Laws.EncodingSelects

/-- The statement, about the instruction as syntax. -/
def Statement (i : Instr) : Prop :=
  selectOperation (encode i).reqsel = .ok i.operation ∧ takeOperands i.operation (encode i).fields = some i

theorem checksum (len : Nat) (rx : List Byte) :
    Statement (.checksum len rx) :=
  ⟨selectOperation_reqsel .checksum, rfl⟩

theorem buildDeleteChar (id : Half) (count : Half) :
    Statement (.buildDeleteChar id count) :=
  ⟨selectOperation_reqsel .buildDeleteChar, rfl⟩

theorem buildEmpty :
    Statement .buildEmpty :=
  ⟨selectOperation_reqsel .buildEmpty, rfl⟩

theorem buildReadIndexTable (page : Byte) :
    Statement (.buildReadIndexTable page) :=
  ⟨selectOperation_reqsel .buildReadIndexTable, rfl⟩

theorem buildCancel :
    Statement .buildCancel :=
  ⟨selectOperation_reqsel .buildCancel, rfl⟩

theorem buildAutoEnroll (id : Half) (times : Byte) (flags : Half) :
    Statement (.buildAutoEnroll id times flags) :=
  ⟨selectOperation_reqsel .buildAutoEnroll, rfl⟩

theorem buildAutoIdentify (id : Half) (score : Byte) (flags : Half) :
    Statement (.buildAutoIdentify id score flags) :=
  ⟨selectOperation_reqsel .buildAutoIdentify, rfl⟩

theorem buildSleep :
    Statement .buildSleep :=
  ⟨selectOperation_reqsel .buildSleep, rfl⟩

theorem buildControlLed (fc : Byte) (scol : Byte) (ecol : Byte) (cyc : Byte) :
    Statement (.buildControlLed fc scol ecol cyc) :=
  ⟨selectOperation_reqsel .buildControlLed, rfl⟩

theorem validate (len : Nat) (rx : List Byte) :
    Statement (.validate len rx) :=
  ⟨selectOperation_reqsel .validate, rfl⟩

theorem parseIndex (len : Nat) (rx : List Byte) :
    Statement (.parseIndex len rx) :=
  ⟨selectOperation_reqsel .parseIndex, rfl⟩

theorem setAddr (newAddr : DevAddr) :
    Statement (.setAddr newAddr) :=
  ⟨selectOperation_reqsel .setAddr, rfl⟩

end Sys2Proof.Laws.EncodingSelects
end

