-- ==== Sys2Proof/Laws/Step.lean ====
section
/-! SUPPORT. What a step does on each kind of input, and a run as a first step and the rest. -/

namespace Sys2Proof.Machine

theorem step_reset {s : State} {rest : List Event} (hp : s.pending = .reset :: rest) :
    step s = .next (resetBlock (s.withPending rest)) := by
  simp [step, hp, serve]

theorem step_resetDuring {s : State} {h : Nat} {r : Request} {rest : List Event}
    (hp : s.pending = .resetDuring h r :: rest) : step s = .next (resetBlock (s.withPending rest)) := by
  simp [step, hp, serve]

/-- A request the decoder refuses leaves a mark and nothing else (R205). -/
theorem step_refused {s : State} {h : Nat} {r : Request} {rest : List Event} {why : DecodeError}
    (hp : s.pending = .request h r :: rest) (hd : decode s.variant r = .error why) :
    step s = .next (refuse h why (s.withPending rest)) := by
  simp [step, hp, serve, hd]

/-- A request the decoder accepts is performed and its outcome delivered. -/
theorem step_request {s : State} {h : Nat} {r : Request} {rest : List Event} {i : Instr}
    (hp : s.pending = .request h r :: rest) (hd : decode s.variant r = .ok i) :
    step s = deliverOutcome h (exec i (s.withPending rest)) := by
  simp [step, hp, serve, hd]

theorem deliverOutcome_eq_next_iff {h : Nat} {o : Host.Outcome State Fault Refusal} {t : State} :
    deliverOutcome h o = .next t ↔ ∃ u, o = .next u ∧ t = deliver h u := by
  cases o <;> simp [deliverOutcome, eq_comm]

/-- A run of no step. -/
theorem run_zero {s t : State} (h : Host.Core.run Sys2Proof.core 0 s = .next t) : t = s := by
  cases h; rfl

/-- A run is its first step and the run from there. -/
theorem run_succ {k : Nat} {s t : State} (h : Host.Core.run Sys2Proof.core (k + 1) s = .next t) :
    ∃ u : State, step s = .next u ∧ Host.Core.run Sys2Proof.core k u = .next t := by
  simp only [Host.Core.run] at h
  cases hs : step s with
  | next u => have hs' : Sys2Proof.core.step s = .next u := hs; rw [hs'] at h; exact ⟨u, rfl, h⟩
  | fault f => have hs' : Sys2Proof.core.step s = .fault f := hs; rw [hs'] at h; cases h
  | refused f => have hs' : Sys2Proof.core.step s = .refused f := hs; rw [hs'] at h; cases h

end Sys2Proof.Machine
end

