-- ==== Sys2Proof/Laws/Validate.lean ====
section
/-! SUPPORT. What the six gates answer (R150–R157) and what the bitmap scan answers (R170–R175), said once. -/

namespace Sys2Proof.Machine

theorem headerGate {rx : List Byte} (h : 12 ≤ rx.length) (a : DevAddr) (len : Nat) :
    be16At rx 0 = headerWord ↔ gatePasses a len rx 2 := by
  have h0 := byteAt_lt rx 0; have h1 := byteAt_lt rx 1
  simp only [gatePasses]
  rw [getElem?_eq_some_iff_byteAt (by omega), getElem?_eq_some_iff_byteAt (by omega)]
  simp [be16At, headerWord]; omega

/-- Four base-256 digits are equal as numbers where they are equal digit by digit. -/
theorem digits4_eq_iff {x0 x1 x2 x3 y0 y1 y2 y3 : Nat} (hx1 : x1 < 256) (hx2 : x2 < 256) (hx3 : x3 < 256)
    (hy1 : y1 < 256) (hy2 : y2 < 256) (hy3 : y3 < 256) :
    x0 * 2 ^ 24 + x1 * 2 ^ 16 + x2 * 2 ^ 8 + x3 = y0 * 2 ^ 24 + y1 * 2 ^ 16 + y2 * 2 ^ 8 + y3 ↔
      x0 = y0 ∧ x1 = y1 ∧ x2 = y2 ∧ x3 = y3 := by
  constructor
  · intro h
    have h3 : x3 = y3 := by omega
    have h2 : x2 = y2 := by omega
    have h1 : x1 = y1 := by omega
    exact ⟨by omega, h1, h2, h3⟩
  · rintro ⟨rfl, rfl, rfl, rfl⟩; rfl

theorem addressGate {rx : List Byte} (h : 12 ≤ rx.length) (a : DevAddr) (len : Nat) :
    byteAt rx 2 * 2 ^ 24 + byteAt rx 3 * 2 ^ 16 + byteAt rx 4 * 2 ^ 8 + byteAt rx 5 = addrValue a ↔
      gatePasses a len rx 3 := by
  simp only [gatePasses]
  rw [getElem?_eq_some_iff_byteAt (by omega), getElem?_eq_some_iff_byteAt (by omega),
    getElem?_eq_some_iff_byteAt (by omega), getElem?_eq_some_iff_byteAt (by omega), addrValue_eq]
  exact digits4_eq_iff (byteAt_lt _ _) (byteAt_lt _ _) (byteAt_lt _ _) a.a1.isLt a.a2.isLt a.a3.isLt

theorem typeGate {rx : List Byte} (h : 12 ≤ rx.length) (a : DevAddr) (len : Nat) :
    byteAt rx 6 = packetResponse ↔ gatePasses a len rx 4 := by
  simp only [gatePasses]
  rw [getElem?_eq_some_iff_byteAt (by omega)]
  simp [packetResponse]

/-- The validator never faults on a request's own buffer, and its gates are those of R151–R156 in order. -/
theorem gateStatus_eq {a : DevAddr} {len : Nat} {rx : List Byte} (hlen : len ≤ rx.length)
    [∀ k, Decidable (gatePasses a len rx k)] :
    gateStatus a len rx = .ok (
      if ¬ gatePasses a len rx 1 then .frameTooShort
      else if ¬ gatePasses a len rx 2 then .headerMismatch
      else if ¬ gatePasses a len rx 3 then .addressMismatch
      else if ¬ gatePasses a len rx 4 then .packetTypeMismatch
      else if ¬ gatePasses a len rx 5 then .lengthMismatch
      else if ¬ gatePasses a len rx 6 then .checksumMismatch
      else .ok) := by
  by_cases h1 : len < 12
  · have : ¬ gatePasses a len rx 1 := by simp [gatePasses]; omega
    rw [if_pos this, gateStatus, if_pos (by simpa [minResponseLength] using h1)]
    rfl
  have hr : 12 ≤ rx.length := by omega
  have g1 : gatePasses a len rx 1 := by simp [gatePasses]; omega
  have e2 := memRead_two (rx := rx) (addr := 0) hlen (by omega)
  have e3 := memRead_four (rx := rx) (addr := 2) hlen (by omega)
  have e4 := memRead_one (rx := rx) (addr := 6) hlen (by omega)
  have e5 := memRead_two (rx := rx) (addr := 7) hlen (by omega)
  have e6 := memRead_two (rx := rx) (addr := len - 2) hlen (by omega)
  have g2 := headerGate hr a len
  have g3 := addressGate hr a len
  have g4 := typeGate hr a len
  have g5 : be16At rx 7 + 9 = len ↔ gatePasses a len rx 5 := Iff.rfl
  have g6 : be16At rx (len - 2) = (checksumOf rx len).toNat ↔ gatePasses a len rx 6 := Iff.rfl
  simp only [gateStatus, minResponseLength, h1, if_false, e2, e3, e4, e5, e6, ckRx_ok hlen (show 8 < len by omega),
    bind, Except.bind, pure, Except.pure, ne_eq, g2, g3, g4, g5, g6, lengthBias, g1, not_true_eq_false]
  split_ifs <;> rfl

/-- All six gates pass: the status is OK (R150). -/
theorem gateStatus_ok {a : DevAddr} {len : Nat} {rx : List Byte} (hlen : len ≤ rx.length)
    (h : allGatesPass a len rx) : gateStatus a len rx = .ok .ok := by
  classical
  have g := fun k h1 h6 => h k h1 h6
  rw [gateStatus_eq hlen]
  simp [g 1 (by omega) (by omega), g 2 (by omega) (by omega), g 3 (by omega) (by omega),
    g 4 (by omega) (by omega), g 5 (by omega) (by omega), g 6 (by omega) (by omega)]

/-- The first failing gate decides the status (R157). -/
theorem gateStatus_error {a : DevAddr} {len k : Nat} {rx : List Byte} (hlen : len ≤ rx.length)
    (h : firstFailure a len rx k) : gateStatus a len rx = .ok (gateError k) := by
  classical
  obtain ⟨h1, h6, hk, hj⟩ := h
  rw [gateStatus_eq hlen]
  have g := fun j a b => hj j a b
  interval_cases k <;> simp_all [gateError]

/-- Either all six gates pass or there is a first that fails (R157). -/
theorem gates_cases (a : DevAddr) (len : Nat) (rx : List Byte) :
    allGatesPass a len rx ∨ ∃ k, firstFailure a len rx k := by
  classical
  by_cases h : ∃ k, 1 ≤ k ∧ k ≤ 6 ∧ ¬ gatePasses a len rx k
  · right
    obtain ⟨h1, h6, hk⟩ := Nat.find_spec h
    refine ⟨Nat.find h, h1, h6, hk, fun j hj hlt => ?_⟩
    have := Nat.find_min h hlt
    by_contra hc
    exact this ⟨hj, by omega, hc⟩
  · left
    intro k h1 h6
    by_contra hc
    exact h ⟨k, h1, h6, hc⟩

/-- All six gates, one by one. -/
theorem allGatesPass_iff {a : DevAddr} {len : Nat} {rx : List Byte} :
    allGatesPass a len rx ↔ gatePasses a len rx 1 ∧ gatePasses a len rx 2 ∧ gatePasses a len rx 3 ∧
      gatePasses a len rx 4 ∧ gatePasses a len rx 5 ∧ gatePasses a len rx 6 := by
  constructor
  · intro h
    exact ⟨h 1 (by omega) (by omega), h 2 (by omega) (by omega), h 3 (by omega) (by omega),
      h 4 (by omega) (by omega), h 5 (by omega) (by omega), h 6 (by omega) (by omega)⟩
  · rintro ⟨h1, h2, h3, h4, h5, h6⟩ k hk hk6
    interval_cases k
    exacts [h1, h2, h3, h4, h5, h6]

/-- A gate's error is never OK. -/
theorem gateError_ne_ok {k : Nat} (h1 : 1 ≤ k) (h6 : k ≤ 6) : gateError k ≠ .ok := by
  interval_cases k <;> decide

/-! ## The bitmap scan -/

theorem scanBits_eq (k v : Nat) (bits slots : List Nat) (h : slots.length ≤ 100) :
    scanBits k v bits slots =
      (slots ++ (bits.filter fun b => v.testBit b).map fun b => 8 * k + b).take 100 := by
  induction bits generalizing slots with
  | nil => simp [scanBits, List.take_of_length_le h]
  | cons b bits ih =>
    rw [scanBits, idCapacity]
    split
    · rename_i hc
      rw [← hc, List.take_left]
    · rename_i hc
      by_cases hb : v.testBit b
      · rw [if_pos hb, ih _ (by simp; omega), List.filter_cons_of_pos (by simpa using hb)]
        simp
      · rw [if_neg hb, ih _ h, List.filter_cons_of_neg (by simpa using hb)]

theorem take_take_append {α : Type} (n : Nat) (xs ys : List α) :
    (xs.take n ++ ys).take n = (xs ++ ys).take n := by
  rcases Nat.le_total xs.length n with h | h
  · rw [List.take_of_length_le h]
  · rw [List.take_append_of_le_length (by simp [h]), List.take_append_of_le_length h, List.take_take, min_self]

theorem scanBytes_eq {rx : List Byte} {len : Nat} (hlen : len ≤ rx.length) (ks slots : List Nat)
    (hs : slots.length ≤ 100) (hk : ∀ k ∈ ks, 10 + k + 1 ≤ len) :
    scanBytes rx len ks slots = .ok ((slots ++ ks.flatMap fun k =>
      ((List.range 8).filter fun b => (byteAt rx (10 + k)).testBit b).map fun b => 8 * k + b).take 100) := by
  induction ks generalizing slots with
  | nil => simp [scanBytes, List.take_of_length_le hs]
  | cons k ks ih =>
    rw [scanBytes, bitmapOffset, memRead_one hlen (hk k (by simp))]
    simp only
    rw [scanBits_eq _ _ _ _ hs, ih _ (by simp) (fun k' h' => hk k' (by simp [h'])), take_take_append]
    simp

/-- The scan gives the first 100 occupied slots of the bitmap, and never faults on a response of 25 bytes or more
(R171, R173, R174). -/
theorem scanBytes_ok {rx : List Byte} {len : Nat} (hlen : len ≤ rx.length) (h : 25 ≤ len) :
    scanBytes rx len (List.range 13) [] = .ok (occupiedSlots rx) := by
  rw [scanBytes_eq hlen _ _ (by simp) (fun k hk => by simp at hk; omega)]
  have hrange : List.range 104 = (List.range 13).flatMap fun k => (List.range 8).map fun b => 8 * k + b := by
    decide
  have hbit : ∀ k, ((List.range 8).filter fun b => (byteAt rx (10 + k)).testBit b) =
      (List.range 8).filter fun b => slotOccupied rx (8 * k + b) := fun k => by
    refine List.filter_congr fun b hb => ?_
    have hb8 : b < 8 := by simpa using hb
    have h1 : (8 * k + b) / 8 = k := by omega
    have h2 : (8 * k + b) % 8 = b := by omega
    rw [slotOccupied, h1, h2]
  simp only [List.nil_append, Except.ok.injEq, occupiedSlots]
  rw [hrange, List.filter_flatMap]
  congr 2
  funext k
  rw [hbit, List.filter_map]
  rfl

end Sys2Proof.Machine
end

