-- ==== Sys2Proof/Tests/Slice0.lean ====
section
/-! SUPPORT. Tests. Expected results come from the vectors of spec/95_test_vectors.md (named K, B, V, X, S, Q there)
and from the operation map of R62; a witness theorem shows that a statement's hypotheses can be met together. -/

namespace Sys2Proof.Machine.Tests

-- One test after another: the checker's threads each take their own stack, and a module build has a memory limit.
set_option Elab.async false

/-- The instance of the vectors: `P_LED_FC_MAX` = 7, `P_DEL_COUNT_WIDTH` = 2, `P_RX_MAX` = 266. -/
def vectorVariant : Variant := { ledModes := .seven, delCountWidth := .two, rxExtra := 241 }

/-- An idle block with the vectors' instance and this address. -/
def idle (a : DevAddr) : State :=
  { devaddr := a, variant := vectorVariant, pending := [], response := none, delivered := [],
    refusals := [] }

def broadcast : DevAddr := ⟨0xFF, 0xFF, 0xFF, 0xFF⟩

/-- The address 0x12345678 of the vectors. -/
def other : DevAddr := ⟨0x12, 0x34, 0x56, 0x78⟩

/-- The state of a next outcome meets `p`. -/
def nextWith (o : Host.Outcome State Fault Refusal) (p : State → Bool) : Bool :=
  match o with
  | .next t => p t
  | .fault _ => false
  | .refused _ => false

theorem nextWith_true {o : Host.Outcome State Fault Refusal} {p : State → Bool} (h : nextWith o p = true) :
    ∃ t, o = .next t ∧ p t = true := by
  cases o with
  | next t => exact ⟨t, rfl, h⟩
  | fault f => cases h
  | refused f => cases h

/-- The response an outcome leaves in the state. -/
def replied (o : Host.Outcome State Fault Refusal) : Option Response :=
  match o with
  | .next t => t.response
  | .fault _ => none
  | .refused _ => none

/-- A frame of this response. -/
def frame (w : Bool) (tx : List Byte) : Option Response :=
  some { status := .ok, warn := some w, txLen := some tx.length, tx := some tx }

/-- The literal frame of E1. -/
def literal : List Byte := [0xEF, 0x01, 0xFF, 0xFF, 0xFF, 0xFF, 0x07, 0x00, 0x03, 0x00, 0x00, 0x0A]

/-- A 25-byte index-table response with this bitmap and checksum (E5). -/
def indexFrame (bitmap : List Byte) (hi lo : Byte) : List Byte :=
  [0xEF, 0x01, 0xFF, 0xFF, 0xFF, 0xFF, 0x07, 0x00, 0x10, 0x00] ++ bitmap ++ [hi, lo]

/-! ## Decoding: one word of R62 for every operation, bit by bit -/

theorem test_decode_checksum : decode vectorVariant
    { reqsel := 0b0000000100000000, fields := { len := some 1, rx := some [0xEF, 0x01] } } =
      .ok (.checksum 1 [0xEF, 0x01]) := by decide
theorem test_decode_deleteChar : decode vectorVariant
    { reqsel := 0b0000001000001100, fields := { id := some 0x0063, count := some 5 } } =
      .ok (.buildDeleteChar 0x0063 5) := by decide
theorem test_decode_empty : decode vectorVariant { reqsel := 0b0000001000001101, fields := {} } =
    .ok .buildEmpty := by decide
theorem test_decode_readIndexTable : decode vectorVariant
    { reqsel := 0b0000001000011111, fields := { page := some 0xFF } } = .ok (.buildReadIndexTable 0xFF) := by decide
theorem test_decode_cancel : decode vectorVariant { reqsel := 0b0000001000110000, fields := {} } =
    .ok .buildCancel := by decide
theorem test_decode_autoEnroll : decode vectorVariant
    { reqsel := 0b0000001000110001, fields := { id := some 0x0001, times := some 0x02, flags := some 0x8003 } } =
      .ok (.buildAutoEnroll 0x0001 0x02 0x8003) := by decide
theorem test_decode_autoIdentify : decode vectorVariant
    { reqsel := 0b0000001000110010, fields := { id := some 0xFFFF, score := some 0x02, flags := some 0x0004 } } =
      .ok (.buildAutoIdentify 0xFFFF 0x02 0x0004) := by decide
theorem test_decode_sleep : decode vectorVariant { reqsel := 0b0000001000110011, fields := {} } =
    .ok .buildSleep := by decide
theorem test_decode_controlLed : decode vectorVariant
    { reqsel := 0b0000001000111100,
      fields := { fc := some 0x07, scol := some 0x01, ecol := some 0x02, cyc := some 0x03 } } =
      .ok (.buildControlLed 0x07 0x01 0x02 0x03) := by decide
theorem test_decode_validate : decode vectorVariant
    { reqsel := 0b0000001100000000, fields := { len := some 0, rx := some [] } } = .ok (.validate 0 []) := by decide
theorem test_decode_parseIndex : decode vectorVariant
    { reqsel := 0b0000010000000000, fields := { len := some 0, rx := some [] } } = .ok (.parseIndex 0 []) := by decide
theorem test_decode_setAddr : decode vectorVariant
    { reqsel := 0b0000010100000000, fields := { newAddr := some other } } = .ok (.setAddr other) := by decide

/-- The twelve words of spec/opcode_table.json, with zero operands. -/
theorem test_table_words :
    ([0x0100, 0x020C, 0x020D, 0x021F, 0x0230, 0x0231, 0x0232, 0x0233, 0x023C, 0x0300, 0x0400, 0x0500].map
      (decodeTableWord 16)).all Option.isSome = true := by decide

/-- Each of the twelve words, placed for the first step after reset, runs. -/
theorem test_table_words_run :
    ([0x0100, 0x020C, 0x020D, 0x021F, 0x0230, 0x0231, 0x0232, 0x0233, 0x023C, 0x0300, 0x0400, 0x0500].all
      fun w => nextWith (step (State.reset.withFetchWord 16 w)) fun t => t.delivered.length == 1) = true := by
  decide

/-- Vectors Q1 to Q6. -/
theorem test_refused_requests :
    ([0x0000, 0x0600, 0x0201, 0x0234, 0x0301].map fun w => decode vectorVariant { reqsel := w, fields := {} }) =
      [.error .reservedOpsel, .error .reservedOpsel, .error .unknownCmd, .error .unknownCmd,
       .error .cmdOutsideBuild] ∧
    decode vectorVariant { reqsel := 0x0231, fields := { id := some 1, times := some 1 } } =
      .error .missingOperand := by decide

/-- Q1: the mark, no response, `DEVADDR` unchanged. -/
theorem test_refusal_marks :
    nextWith (step { idle other with pending := [.request 3 { reqsel := 0, fields := {} }] }) (fun t =>
      t.refusals == [{ host := 3, why := .reservedOpsel }] && t.delivered.isEmpty && t.devaddr == other) = true := by
  decide

theorem test_surplus_operand_refused :
    decode vectorVariant { reqsel := 0x020D, fields := { page := some 0 } } = .error .surplusOperand := by decide

/-! ## WellFormed: an ill-formed term for each check (Q7, Q8, R24) -/

theorem test_illFormed_rx_short : wellFormed vectorVariant (.validate 12 [0xEF, 0x01]) = false ∧
    decode vectorVariant (encode (.validate 12 [0xEF, 0x01])) = .error .rxShorterThanLen := by decide
theorem test_illFormed_len_over_capacity :
    wellFormed vectorVariant (.parseIndex 267 (List.replicate 267 0)) = false ∧
    decode vectorVariant (encode (.parseIndex 267 (List.replicate 267 0))) = .error .lenOverCapacity := by
  decide +kernel
theorem test_illFormed_count_too_wide :
    wellFormed { vectorVariant with delCountWidth := .one } (.buildDeleteChar 1 256) = false ∧
    decode { vectorVariant with delCountWidth := .one } (encode (.buildDeleteChar 1 256)) =
      .error .countTooWide := by decide

/-! ## One step of each instruction -/

/-- K5: the last two bytes are not summed. -/
theorem test_checksum_range : replied (exec (.checksum 12 (literal.take 10 ++ [0xFF, 0xFF])) (idle other)) =
    some { status := .ok, cksum := some 0x000A } := by decide
/-- K2: 8 bytes is too short, 9 is not (K3). -/
theorem test_checksum_short : replied (exec (.checksum 8 (literal.take 8)) (idle broadcast)) =
    some { status := .checksumInputTooShort } := by decide
/-- B25: a 1-byte `COUNT`. -/
theorem test_deleteChar_narrow :
    replied (exec (.buildDeleteChar 99 5)
      { idle broadcast with variant := { vectorVariant with delCountWidth := .one } }) =
      frame false [0xEF, 0x01, 0xFF, 0xFF, 0xFF, 0xFF, 0x01, 0x00, 0x06, 0x0C, 0x00, 0x63, 0x05, 0x00, 0x7B] := by
  decide
/-- B23: both operands bad, the first is reported. -/
theorem test_deleteChar_first_bad : replied (exec (.buildDeleteChar 100 0) (idle broadcast)) =
    some { status := .parameterOutOfRange, badField := some 0 } := by decide
/-- B33. -/
theorem test_empty : replied (exec .buildEmpty (idle other)) =
    frame false [0xEF, 0x01, 0x12, 0x34, 0x56, 0x78, 0x01, 0x00, 0x03, 0x0D, 0x00, 0x11] := by decide
/-- B32: the checksum carries into its high byte. -/
theorem test_readIndexTable : replied (exec (.buildReadIndexTable 0xFF) (idle broadcast)) =
    frame false [0xEF, 0x01, 0xFF, 0xFF, 0xFF, 0xFF, 0x01, 0x00, 0x04, 0x1F, 0xFF, 0x01, 0x23] := by decide
/-- B28. -/
theorem test_cancel : replied (exec .buildCancel (idle broadcast)) =
    frame false [0xEF, 0x01, 0xFF, 0xFF, 0xFF, 0xFF, 0x01, 0x00, 0x03, 0x30, 0x00, 0x34] := by decide
/-- B3: the largest values. -/
theorem test_autoEnroll : replied (exec (.buildAutoEnroll 0xFFFF 5 0xFFFF) (idle broadcast)) =
    frame false [0xEF, 0x01, 0xFF, 0xFF, 0xFF, 0xFF, 0x01, 0x00, 0x08, 0x31, 0xFF, 0xFF, 0x05, 0xFF, 0xFF, 0x04,
      0x3B] := by decide
/-- B4: the least illegal `TIMES`. -/
theorem test_autoEnroll_times : replied (exec (.buildAutoEnroll 1 6 0) (idle broadcast)) =
    some { status := .parameterOutOfRange, badField := some 1 } := by decide
/-- B35: the order of the fields. -/
theorem test_autoIdentify : replied (exec (.buildAutoIdentify 0x1234 0x56 0x789A) (idle other)) =
    frame false [0xEF, 0x01, 0x12, 0x34, 0x56, 0x78, 0x01, 0x00, 0x08, 0x32, 0x12, 0x34, 0x56, 0x78, 0x9A, 0x01,
      0xE9] := by decide
/-- B29. -/
theorem test_sleep : replied (exec .buildSleep (idle broadcast)) =
    frame false [0xEF, 0x01, 0xFF, 0xFF, 0xFF, 0xFF, 0x01, 0x00, 0x03, 0x33, 0x00, 0x37] := by decide
/-- B12: one colour masked is enough for the warning. -/
theorem test_controlLed_warns : replied (exec (.buildControlLed 3 7 9 0) (idle broadcast)) =
    frame true [0xEF, 0x01, 0xFF, 0xFF, 0xFF, 0xFF, 0x01, 0x00, 0x07, 0x3C, 0x03, 0x07, 0x01, 0x00, 0x00, 0x4F] := by
  decide
/-- B16: function code 7 on the 6-mode variant. -/
theorem test_controlLed_six :
    replied (exec (.buildControlLed 7 1 1 0)
      { idle broadcast with variant := { vectorVariant with ledModes := .six } }) =
      some { status := .parameterOutOfRange, badField := some 0 } := by decide
/-- V17: byte 9 is summed and not checked. -/
theorem test_validate_byte9 :
    replied (exec (.validate 12 [0xEF, 0x01, 0xFF, 0xFF, 0xFF, 0xFF, 0x07, 0x00, 0x03, 0x5A, 0x00, 0x64])
      (idle broadcast)) = some { status := .ok } := by decide
/-- V20: a declared length that is too small. -/
theorem test_validate_length : replied (exec (.validate 14 (literal ++ [0x00, 0x0A])) (idle broadcast)) =
    some { status := .lengthMismatch } := by decide
/-- X8: mixed bytes, the last one with bits below 4 only. -/
theorem test_parseIndex_mixed :
    replied (exec (.parseIndex 25 (indexFrame [0x01, 0x80, 0, 0, 0, 0, 0x10, 0, 0, 0, 0, 0, 0x0F] 0x00 0xB7))
      (idle broadcast)) =
      some { status := .ok, slotCount := some 7, slots := some [0, 15, 52, 96, 97, 98, 99] } := by decide +kernel
/-- X9: the cap counts ids and does not filter them. -/
theorem test_parseIndex_cap :
    replied (exec (.parseIndex 25 (indexFrame (List.replicate 12 0xFF ++ [0xF0]) 0x0C 0xFB)) (idle broadcast)) =
      some { status := .ok, slotCount := some 100, slots := some (List.range 96 ++ [100, 101, 102, 103]) } := by
  decide +kernel
/-- S1: the address after SET_ADDR. -/
theorem test_setAddr : nextWith (exec (.setAddr other) (idle broadcast)) (fun t => t.devaddr == other) = true := by
  decide

/-! ## Witnesses: the hypotheses of the statements can be met together -/

/-- An idle block with one input pending. -/
def asked (e : Event) : State := { idle broadcast with pending := [e] }

theorem witness_ResetLoadsTheBroadcastAddress : ∃ (s : State) (rest : List Event), s.pending = .reset :: rest :=
  ⟨asked .reset, [], rfl⟩

theorem witness_ResetAbandonsTheRequestInProgress : ∃ (s : State) (h : Nat) (r : Request) (rest : List Event),
    s.pending = .resetDuring h r :: rest :=
  ⟨asked (.resetDuring 1 (encode (.setAddr other))), 1, _, [], rfl⟩

theorem witness_IdleStepChangesNothing : (idle other).pending = [] := rfl

theorem witness_StepPerformsTheDecodedInstruction :
    (asked (.request 3 (encode (.setAddr other)))).pending = [.request 3 (encode (.setAddr other))] ∧
      decode vectorVariant (encode (.setAddr other)) = .ok (.setAddr other) := by decide

/-- One witness for each clause, at boundary values: `OPSEL` 0 and 6; BUILD with 0x0B; VALIDATE with `CMD` 1 and
0xFF; a missing `FLAGS`; `LEN` one above `P_RX_MAX`; `|RX|` one below `LEN`; and a request that is served. -/
theorem witness_ReservedAndIllegalRequestsAreRefused :
    ((0x00FF : Half).toNat / 256 < 1 ∧ 5 < (0x0600 : Half).toNat / 256) ∧
    ((0x020B : Half).toNat / 256 = 2 ∧
      (0x020B : Half).toNat % 256 ∉ [0x0C, 0x0D, 0x1F, 0x30, 0x31, 0x32, 0x33, 0x3C]) ∧
    ((0x0301 : Half).toNat / 256 ≠ 2 ∧ (0x0301 : Half).toNat % 256 ≠ 0 ∧ (0x05FF : Half).toNat % 256 ≠ 0) ∧
    missingOperand { id := some 1, times := some 1 } .buildAutoEnroll ∧
    (vectorVariant.rxMax < 267 ∧ (List.replicate 11 (0 : Byte)).length < 12) ∧
    (asked (.request 4 (encode .buildEmpty))).pending = [.request 4 (encode .buildEmpty)] ∧
    (∃ t, step (asked (.request 4 (encode .buildEmpty))) = .next t ∧ t.refusals.isEmpty = true) := by
  refine ⟨by decide, by decide, by decide, ?_, by decide, rfl, nextWith_true (by decide)⟩
  exact .inr (.inr rfl)

/-- `LEN` = `|RX|` = `P_RX_MAX`, the largest that is accepted. -/
theorem witness_WellFormedRequestsAreAnsweredOnce :
    (asked (.request 2 (encode (.checksum 266 (List.replicate 266 0))))).pending =
      [.request 2 (encode (.checksum 266 (List.replicate 266 0)))] ∧
    wellFormed vectorVariant (.checksum 266 (List.replicate 266 0)) = true :=
  ⟨rfl, by decide +kernel⟩

theorem witness_StepTakesOneInput :
    ∃ t, step (asked (.request 0 (encode (.setAddr other)))) = .next t ∧ (t.devaddr == other) = true :=
  nextWith_true (by decide)

/-- `COUNT` = 255, the largest for a 1-byte field. -/
theorem witness_DecodeReadsBackEveryEncoding :
    wellFormed { vectorVariant with delCountWidth := .one } (.buildDeleteChar 99 255) = true := by decide

theorem witness_DecodeAcceptsOnlyEncodings : decode vectorVariant
    { reqsel := 0x0231, fields := { id := some 1, times := some 2, flags := some 3 } } =
      .ok (.buildAutoEnroll 1 2 3) := by decide

theorem witness_ChecksumSumsItsRange : 8 ≤ (literal.take 8).length ∧ 9 ≤ (literal.take 9).length := by decide

theorem witness_ChecksumCoversTypeToPayloadOnly :
    (8 < 9 ∧ 9 ≤ (literal.take 9).length ∧ 9 ≤ ([0, 0, 0, 0, 0, 0, 0x07, 1, 2] : List Byte).length ∧
      ∀ i, 6 ≤ i → i + 3 ≤ 9 → (literal.take 9)[i]? = ([0, 0, 0, 0, 0, 0, 0x07, 1, 2] : List Byte)[i]?) ∧
    (8 < 12 ∧ 12 ≤ literal.length ∧ 12 ≤ (literal.set 9 0x5A).length) ∧
    (6 ≤ 9 ∧ 9 + 3 ≤ 12 ∧ literal[9]? ≠ some 0x5A) ∧
    (isBuild (.buildReadIndexTable 7) = true ∧
      (∃ t, exec (.buildReadIndexTable 7) (idle broadcast) = .next t ∧
        (t.response.any fun r => r.tx.isSome) = true) ∧
      ∃ t, exec (.buildReadIndexTable 7) (idle other) = .next t ∧
        (t.response.any fun r => r.tx.isSome) = true) := by
  refine ⟨⟨by decide, by decide, by decide, fun i h1 h2 => ?_⟩, by decide, by decide, rfl, nextWith_true (by decide),
    nextWith_true (by decide)⟩
  obtain rfl : i = 6 := by omega
  rfl

theorem witness_BuiltFramesRoundTripThroughValidate : isBuild (.buildDeleteChar 99 5) = true ∧
    ∃ t, exec (.buildDeleteChar 99 5) (idle other) = .next t ∧
      (t.response.any fun r => r.status == .ok) = true :=
  ⟨rfl, nextWith_true (by decide)⟩

theorem literal_allGatesPass : allGatesPass broadcast 12 literal := by
  rw [allGatesPass_iff]
  refine ⟨?_, ?_, ?_, ?_, ?_, ?_⟩ <;> simp only [gatePasses] <;> decide

/-- Every gate passes, and for each gate a frame that fails it first (V1; V2, V4, V7, V9, V11, V13). -/
theorem witness_ValidateReportsTheFirstFailingGate :
    (12 ≤ literal.length ∧ allGatesPass broadcast 12 literal) ∧
    firstFailure broadcast 11 (literal.take 11) 1 ∧
    firstFailure broadcast 12 (literal.set 1 0x02) 2 ∧
    firstFailure broadcast 12 (literal.set 5 0xFE) 3 ∧
    firstFailure broadcast 12 ((literal.set 6 0x08).set 11 0x0B) 4 ∧
    firstFailure broadcast 12 ((literal.set 8 0x04).set 11 0x0B) 5 ∧
    firstFailure broadcast 12 (literal.set 11 0x0B) 6 := by
  refine ⟨⟨by decide, literal_allGatesPass⟩, ?_, ?_, ?_, ?_, ?_, ?_⟩ <;>
    refine ⟨by decide, by decide, ?_, fun j h1 hk => ?_⟩ <;>
    first
      | (simp only [gatePasses]; decide)
      | (interval_cases j <;> (simp only [gatePasses]; decide))

theorem witness_ValidateAcceptsExactlyResponseFrames :
    12 ≤ literal.length ∧ literal.take 12 = responseFrame broadcast [0x00] := by decide

theorem witness_BytesPastLenAreNeverRead : 12 ≤ (literal ++ [0x55]).length ∧ 12 ≤ (literal ++ [0xAA, 0x00]).length ∧
    (literal ++ [0x55]).take 12 = (literal ++ [0xAA, 0x00]).take 12 := by decide

/-- A 25-byte response with these bitmap and checksum bytes passes every gate. -/
theorem indexFrame_allGatesPass {bitmap : List Byte} {hi lo : Byte}
    (h : gateStatus broadcast 25 (indexFrame bitmap hi lo) = .ok .ok)
    (hl : 25 ≤ (indexFrame bitmap hi lo).length) : allGatesPass broadcast 25 (indexFrame bitmap hi lo) := by
  rcases gates_cases broadcast 25 (indexFrame bitmap hi lo) with g | ⟨k, g⟩
  · exact g
  · rw [gateStatus_error hl g] at h
    exact absurd (Except.ok.inj h) (gateError_ne_ok g.1 g.2.1)

/-- Valid and too short for the bitmap (12 bytes), valid with 25, and failing a gate. -/
theorem witness_ParseIndexListsOccupiedSlots :
    (12 ≤ literal.length ∧ allGatesPass broadcast 12 literal ∧ 12 < 25) ∧
    (25 ≤ (indexFrame (0x07 :: List.replicate 12 0) 0x00 0x1E).length ∧
      allGatesPass broadcast 25 (indexFrame (0x07 :: List.replicate 12 0) 0x00 0x1E)) ∧
    firstFailure broadcast 12 (literal.set 11 0x0B) 6 :=
  ⟨⟨by decide, literal_allGatesPass, by decide⟩,
    ⟨by decide, indexFrame_allGatesPass (by decide +kernel) (by decide)⟩,
    witness_ValidateReportsTheFirstFailingGate.2.2.2.2.2.2⟩

/-- A list with occupied slots left out: every bit set, so that the cap leaves out slot 100. -/
theorem witness_SlotListsAreAscendingAndCapped :
    25 ≤ (indexFrame (List.replicate 13 0xFF) 0x0D 0x0A).length ∧
    (∃ t, exec (.parseIndex 25 (indexFrame (List.replicate 13 0xFF) 0x0D 0x0A)) (idle broadcast) = .next t ∧
      (t.response.any fun r => r.slots == some (List.range 100)) = true) ∧
    slotOccupied (indexFrame (List.replicate 13 0xFF) 0x0D 0x0A) 100 = true ∧ 100 ∉ List.range 100 :=
  ⟨by decide, nextWith_true (by decide +kernel), by decide, by decide⟩

theorem witness_EmptyBitmapIsAnEmptyList :
    25 ≤ (indexFrame (List.replicate 13 0) 0x00 0x17).length ∧
    allGatesPass broadcast 25 (indexFrame (List.replicate 13 0) 0x00 0x17) ∧
    ∀ i, 10 ≤ i → i ≤ 22 → (indexFrame (List.replicate 13 0) 0x00 0x17)[i]? = some 0x00 := by
  refine ⟨by decide, indexFrame_allGatesPass (by decide +kernel) (by decide), fun i h1 h2 => ?_⟩
  interval_cases i <;> rfl

/-- The bitmap of X1 with index 9 = 0x00 and, as in X11, with index 9 = 0x01. -/
theorem witness_ParseIndexInterpretsOnlyTheBitmap :
    allGatesPass broadcast 25 (indexFrame (0x07 :: List.replicate 12 0) 0x00 0x1E) ∧
    gateStatus broadcast 25 ((indexFrame (0x07 :: List.replicate 12 0) 0x00 0x1F).set 9 0x01) = .ok .ok ∧
    ∀ i, 10 ≤ i → i ≤ 22 → (indexFrame (0x07 :: List.replicate 12 0) 0x00 0x1E)[i]? =
      ((indexFrame (0x07 :: List.replicate 12 0) 0x00 0x1F).set 9 0x01)[i]? := by
  refine ⟨indexFrame_allGatesPass (by decide +kernel) (by decide), by decide +kernel, fun i h1 h2 => ?_⟩
  interval_cases i <;> rfl

theorem witness_OnlySetAddrWritesTheAddress :
    ∃ t, exec (.validate 12 literal) (idle other) = .next t ∧ (t.devaddr == other) = true :=
  nextWith_true (by decide)

theorem witness_LaterOperationsUseTheNewAddress :
    (∃ t, exec (.setAddr other) (idle broadcast) = .next t ∧ (t.devaddr == other) = true) ∧
    isBuild .buildEmpty = true ∧
    (∃ u, exec .buildEmpty (idle other) = .next u ∧ (u.response.any fun r => r.tx.isSome) = true) ∧
    (12 ≤ literal.length ∧ literal.take 2 = [0xEF, 0x01] ∧ (literal.drop 2).take 4 ≠ other.bytes) :=
  ⟨nextWith_true (by decide), rfl, nextWith_true (by decide), by decide⟩

/-- A run of one step that answers: for RunsObserveTheLastAddressWritten and RunsAnswerRequestsSerially. -/
theorem witness_Runs : ∃ t, Host.Core.run Sys2Proof.core 1 (asked (.request 0 (encode (.setAddr other)))) =
    .next t ∧ (t.devaddr == other && t.delivered.length == 1) = true :=
  nextWith_true (o := Host.Core.run Sys2Proof.core 1 (asked (.request 0 (encode (.setAddr other))))) (by decide)

/-- A request that R72 refuses (Q2) and, after it, one that is served. -/
def refusedThenServed : State :=
  { idle broadcast with
    pending := [.request 4 { reqsel := 0x0600, fields := {} }, .request 4 (encode (.setAddr other))] }

/-- The run goes on past a refusal: the mark is kept and the next request is served. -/
theorem witness_RunsKeepEveryRefusalMark :
    ∃ t, Host.Core.run Sys2Proof.core 2 refusedThenServed = .next t ∧
      (t.refusals == [{ host := 4, why := .reservedOpsel }] && t.delivered.length == 1 && t.devaddr == other) =
        true :=
  nextWith_true (o := Host.Core.run Sys2Proof.core 2 refusedThenServed) (by decide)

theorem witness_EveryHostIsAnsweredUnderEveryInterleaving :
    interleaves (fun h => if h = 4 then [{ reqsel := 0x0600, fields := {} }, encode (.setAddr other)] else [])
      refusedThenServed.pending ∧
    refusedThenServed.delivered = [] ∧ refusedThenServed.refusals = [] := by
  refine ⟨fun h => ?_, rfl, rfl⟩
  by_cases hh : 4 = h
  · subst hh; rfl
  · simp [refusedThenServed, requestsOf, hh, Ne.symm hh]

theorem witness_ResultsDependOnRequestAndAddressOnly :
    (idle other).devaddr = (State.withPending (idle other) [.reset]).devaddr ∧
    (idle other).variant = (State.withPending (idle other) [.reset]).variant ∧
    ∃ t, exec .buildEmpty (idle other) = .next t ∧ t.response.isSome = true :=
  ⟨rfl, rfl, nextWith_true (by decide)⟩

theorem witness_FailingOperationsWriteNothing :
    ∃ t, exec (.buildDeleteChar 100 1) (idle other) = .next t ∧
      (t.response.any fun r => r.status == .parameterOutOfRange) = true :=
  nextWith_true (by decide)

theorem witness_EachOperationReportsItsOwnStatuses :
    ∃ t, exec (.checksum 8 (literal.take 8)) (idle other) = .next t ∧ t.response.isSome = true :=
  nextWith_true (by decide)

/-- The first and the last reserved number. -/
theorem witness_StatusNumbersAreThoseOfTheTable : 9 ≤ (9 : BitVec 4).toNat ∧ 9 ≤ (15 : BitVec 4).toNat := by decide

theorem witness_WarningsComeOnlyFromMaskedColours :
    ∃ t, exec (.buildControlLed 1 8 0 0) (idle other) = .next t ∧
      (t.response.any fun r => r.warn == some true) = true :=
  nextWith_true (by decide)

theorem witness_AbsentResponseFieldsFault :
    (raiseStatus .frameTooShort).tx = none ∧ (respondFrame 0 [] true).tx = some [] := by decide

theorem witness_WellFormedInstructionsNeverFault : wellFormed (idle other).variant (.validate 12 literal) = true := by
  decide

theorem witness_GoodStatesStayGood : (asked (.request 0 (encode (.setAddr other)))).good ∧
    ∃ t, step (asked (.request 0 (encode (.setAddr other)))) = .next t ∧ (t.delivered.length == 1) = true :=
  ⟨⟨rfl, by simp [asked, idle]⟩, nextWith_true (by decide)⟩

end Sys2Proof.Machine.Tests
end

