-- ==== Sys2Proof/Proofs/Scope.lean ====
section
/-! SUPPORT. What an instruction makes of the state, said once: its response depends on the parameters, the address and
its operands alone, and it leaves everything but the response and the address. From that, what a step does on a request
the decoder accepts, and the statements on serving a request (R6, R203, R205, R207). -/

namespace Sys2Proof.Machine

/-! ## An instruction as a response and an address -/

/-- The response of an instruction on a block with parameters `v`, under the address `a` (R29): no other part of
the state enters it. -/
def responseOf (v : Variant) (a : DevAddr) : Instr → Except Fault Response
  | .checksum len rx => checksumResponse len rx
  | .buildDeleteChar id count =>
    if idCapacity ≤ id.toNat then .ok (raiseOutOfRange 0)
    else if count.toNat < 1 ∨ 5 < count.toNat then .ok (raiseOutOfRange 1)
    else emitFrame a 0x0C (payloadDeleteChar v id count) warnNone
  | .buildEmpty => emitFrame a 0x0D [] warnNone
  | .buildReadIndexTable page => emitFrame a 0x1F (payloadReadIndexTable page) warnNone
  | .buildCancel => emitFrame a 0x30 [] warnNone
  | .buildAutoEnroll id times flags =>
    if 5 < times.toNat then .ok (raiseOutOfRange 1)
    else emitFrame a 0x31 (payloadAutoEnroll id times flags) warnNone
  | .buildAutoIdentify id score flags => emitFrame a 0x32 (payloadAutoIdentify id score flags) warnNone
  | .buildSleep => emitFrame a 0x33 [] warnNone
  | .buildControlLed fc scol ecol cyc =>
    if fc.toNat < 1 ∨ v.ledFcMax < fc.toNat then .ok (raiseOutOfRange 0)
    else emitFrame a 0x3C (payloadControlLed fc scol ecol cyc) (warnColours scol ecol)
  | .validate len rx => validateResponse a len rx
  | .parseIndex len rx => parseIndexResponse a len rx
  | .setAddr _ => .ok respondOk

/-- The address an instruction leaves where it found `a`: SET_ADDR alone writes one (R20). -/
def addressLeft (a : DevAddr) : Instr → DevAddr
  | .setAddr n => n
  | _ => a

/-- `exec` is these two functions: the response of `responseOf` on the state with the address of `addressLeft`. -/
theorem exec_eq_answer (i : Instr) (s : State) :
    exec i s = answer (s.withAddr (addressLeft s.devaddr i)) (responseOf s.variant s.devaddr i) := by
  cases i <;> rfl

/-! ## Every well-formed instruction has a response -/

/-- No payload of a BUILD is longer than 5 bytes (R65), so `EmitFrame` answers with its frame. -/
theorem emitFrame_answers (a : DevAddr) (op : Byte) {p : List Byte} (w : Bool) (hp : p.length ≤ 5) :
    ∃ r, emitFrame a op p w = .ok r :=
  ⟨_, emitFrame_ok a op p w (by omega)⟩

theorem payloadDeleteChar_length_le (v : Variant) (id count : Half) :
    (payloadDeleteChar v id count).length ≤ 5 := by
  unfold payloadDeleteChar placeCount
  split <;> simp [placeHalf]

theorem checksumResponse_answers {len : Nat} {rx : List Byte} (hlen : len ≤ rx.length) :
    ∃ r, checksumResponse len rx = .ok r := by
  unfold checksumResponse
  split
  · exact ⟨_, rfl⟩
  · rw [ckRx_ok hlen (by omega)]
    exact ⟨_, rfl⟩

/-- The gates read inside the buffer: either all pass or the first that fails gives the status (R157). -/
theorem gateStatus_answers (a : DevAddr) {len : Nat} {rx : List Byte} (hlen : len ≤ rx.length) :
    ∃ st, gateStatus a len rx = .ok st := by
  obtain hall | ⟨k, hk⟩ := gates_cases a len rx
  · exact ⟨_, gateStatus_ok hlen hall⟩
  · exact ⟨_, gateStatus_error hlen hk⟩

theorem validateResponse_answers (a : DevAddr) {len : Nat} {rx : List Byte} (hlen : len ≤ rx.length) :
    ∃ r, validateResponse a len rx = .ok r := by
  obtain ⟨st, hst⟩ := gateStatus_answers a hlen
  simp only [validateResponse, hst, bind, Except.bind]
  split <;> exact ⟨_, rfl⟩

theorem parseIndexResponse_answers (a : DevAddr) {len : Nat} {rx : List Byte} (hlen : len ≤ rx.length) :
    ∃ r, parseIndexResponse a len rx = .ok r := by
  obtain ⟨st, hst⟩ := gateStatus_answers a hlen
  simp only [parseIndexResponse, hst, bind, Except.bind]
  split
  · exact ⟨_, rfl⟩
  · split
    · exact ⟨_, rfl⟩
    · next hshort =>
      rw [scanBytes_ok hlen (Nat.le_of_not_lt hshort)]
      exact ⟨_, rfl⟩

theorem length_le_of_wellFormedRx {v : Variant} {len : Nat} {rx : List Byte} (h : wellFormedRx v len rx = true) :
    len ≤ rx.length := by
  simp only [wellFormedRx, Bool.and_eq_true, decide_eq_true_eq] at h
  obtain ⟨hlen, -⟩ := h
  exact hlen

/-- A well-formed instruction reaches none of the model's faults (R41, R42, R215). -/
theorem responseOf_answers {v : Variant} {i : Instr} (a : DevAddr) (h : wellFormed v i = true) :
    ∃ r, responseOf v a i = .ok r := by
  cases i with
  | checksum len rx => exact checksumResponse_answers (length_le_of_wellFormedRx h)
  | validate len rx => exact validateResponse_answers a (length_le_of_wellFormedRx h)
  | parseIndex len rx => exact parseIndexResponse_answers a (length_le_of_wellFormedRx h)
  | setAddr n => exact ⟨_, rfl⟩
  | buildEmpty => exact emitFrame_answers _ _ _ (by simp)
  | buildCancel => exact emitFrame_answers _ _ _ (by simp)
  | buildSleep => exact emitFrame_answers _ _ _ (by simp)
  | buildReadIndexTable page => exact emitFrame_answers _ _ _ (by simp [payloadReadIndexTable])
  | buildAutoIdentify id score flags =>
    exact emitFrame_answers _ _ _ (by simp [payloadAutoIdentify, placeHalf])
  | buildAutoEnroll id times flags =>
    simp only [responseOf]
    split
    · exact ⟨_, rfl⟩
    · exact emitFrame_answers _ _ _ (by simp [payloadAutoEnroll, placeHalf])
  | buildControlLed fc scol ecol cyc =>
    simp only [responseOf]
    split
    · exact ⟨_, rfl⟩
    · exact emitFrame_answers _ _ _ (by simp [payloadControlLed])
  | buildDeleteChar id count =>
    simp only [responseOf]
    split
    · exact ⟨_, rfl⟩
    · split
      · exact ⟨_, rfl⟩
      · exact emitFrame_answers _ _ _ (payloadDeleteChar_length_le v id count)

/-- What a well-formed instruction makes of a state: its response stands there, the address is the one it leaves, and
nothing else changes (R20, R28, R203). -/
theorem exec_of_wellFormed {i : Instr} {s : State} (h : wellFormed s.variant i = true) :
    ∃ p, exec i s = .next ((s.withAddr (addressLeft s.devaddr i)).withResponse p) := by
  obtain ⟨p, hp⟩ := responseOf_answers s.devaddr h
  exact ⟨p, by rw [exec_eq_answer, hp, answer_ok]⟩

/-! ## A step on a request the decoder accepts -/

theorem wellFormed_of_decode {v : Variant} {r : Request} {i : Instr} (hd : decode v r = .ok i) :
    wellFormed v i = true := by
  obtain ⟨-, -, hbounds⟩ := (decode_ok_iff v r i).1 hd
  exact (operandBounds_eq_none_iff v i).1 hbounds

theorem decode_encode {v : Variant} {i : Instr} (h : wellFormed v i = true) : decode v (encode i) = .ok i :=
  (decode_ok_iff v _ i).2 ⟨selectOperation_reqsel _, rfl, (operandBounds_eq_none_iff v i).2 h⟩

/-- The state in which host `h` has been answered: `exec` gives it with the response in the block, and the step with
the response delivered (R6, R203, R207). -/
theorem step_answers {s : State} {h : Nat} {r : Request} {rest : List Event} {i : Instr}
    (hp : s.pending = .request h r :: rest) (hd : decode s.variant r = .ok i) :
    ∃ p, exec i (s.withPending rest) =
        .next (((s.withPending rest).withAddr (addressLeft s.devaddr i)).withResponse p) ∧
      step s = .next (((s.withPending rest).withAddr (addressLeft s.devaddr i)).withDelivery h p) := by
  obtain ⟨p, hexec⟩ := exec_of_wellFormed (s := s.withPending rest) (wellFormed_of_decode hd)
  rw [State.withPending_devaddr] at hexec
  have hstep := step_request hp hd
  rw [hexec] at hstep
  exact ⟨p, hexec, hstep⟩

/-- Settles O4: `step_answers`, whose next state is `exec`'s with the response moved to the deliveries. -/
theorem stepPerformsTheDecodedInstruction : Obligations.StepPerformsTheDecodedInstruction := by
  intro s h r rest i hp hd
  obtain ⟨p, hexec, hstep⟩ := step_answers hp hd
  exact ⟨_, p, hexec, State.withResponse_response _ p, hstep⟩

/-- Settles O6: the decoder reads a well-formed instruction back from its request, so that `step_answers` gives the
next state, and its fields are read off. -/
theorem wellFormedRequestsAreAnsweredOnce : Obligations.WellFormedRequestsAreAnsweredOnce := by
  intro s h i rest hp hwf
  obtain ⟨p, -, hstep⟩ := step_answers hp (decode_encode hwf)
  exact ⟨_, p, hstep, by simp⟩

end Sys2Proof.Machine
end

/-! SUPPORT. The state along runs. What one step can do, by the input it takes, said once (`Serves`), and what any
number of steps leaves (`Leaves`): the statements on the address and on the responses of a run are two of its fields.
Then the responses themselves, operation by operation: each is one of the legal ones, so that good states stay good. -/

namespace Sys2Proof.Machine

/-! ## The decoder -/

/-- Settles O8: the decoder's parts hold of an encoding, as `decode_encode` says. -/
theorem decodeReadsBackEveryEncoding : Obligations.DecodeReadsBackEveryEncoding := by
  intro v i hwf
  exact decode_encode hwf

/-- Settles O9: the selected operation has the `REQSEL` that selected it, and the fields given are the instruction's
own. -/
theorem decodeAcceptsOnlyEncodings : Obligations.DecodeAcceptsOnlyEncodings := by
  intro v r i hd
  obtain ⟨hsel, hfields, -⟩ := (decode_ok_iff v r i).1 hd
  have henc : encode i = r := by rw [encode, selectOperation_ok hsel, ← hfields]
  exact ⟨henc, wellFormed_of_decode hd⟩

/-! ## What an instruction changes, and what its result depends on -/

/-- An instruction answers a next state exactly where it has a response, and that state is the one before with this
response and the address it leaves (R20, R28, R29). -/
theorem exec_eq_next_iff {i : Instr} {s t : State} :
    exec i s = .next t ↔ ∃ p, responseOf s.variant s.devaddr i = .ok p ∧
      t = (s.withAddr (addressLeft s.devaddr i)).withResponse p := by
  rw [exec_eq_answer, answer_eq_next_iff]

/-- Settles O29: the state `exec_eq_next_iff` names, where the address left is that of SET_ADDR or the one before. -/
theorem onlySetAddrWritesTheAddress : Obligations.OnlySetAddrWritesTheAddress := by
  intro i s t hexec
  obtain ⟨p, -, rfl⟩ := exec_eq_next_iff.1 hexec
  exact ⟨p, by cases i <;> rfl⟩

/-- Settles O36: the response and the address left are functions of the operands, the parameters and the address. -/
theorem resultsDependOnRequestAndAddressOnly : Obligations.ResultsDependOnRequestAndAddressOnly := by
  intro i s s' t ha hv hexec
  obtain ⟨p, hp, rfl⟩ := exec_eq_next_iff.1 hexec
  rw [ha, hv] at hp
  exact ⟨_, exec_eq_next_iff.2 ⟨p, hp, rfl⟩, by simp, by simp [ha]⟩

/-! ## What a step can do -/

/-- What a step makes of `s`, by the input it takes: nothing, where none waits; a reset, also where it cuts a request;
the mark of a refused request; or the response of the instruction decoded, delivered to the host that asked. -/
inductive Serves (s : State) : State → Prop
  | idle (hp : s.pending = []) : Serves s s
  | reset {rest : List Event} (hp : s.pending = .reset :: rest) : Serves s (resetBlock (s.withPending rest))
  | resetDuring {h : Nat} {r : Request} {rest : List Event} (hp : s.pending = .resetDuring h r :: rest) :
      Serves s (resetBlock (s.withPending rest))
  | refused {h : Nat} {r : Request} {rest : List Event} {why : DecodeError} (hp : s.pending = .request h r :: rest)
      (hd : decode s.variant r = .error why) : Serves s (refuse h why (s.withPending rest))
  | answered {h : Nat} {r : Request} {rest : List Event} {i : Instr} {p : Response}
      (hp : s.pending = .request h r :: rest) (hd : decode s.variant r = .ok i)
      (hr : responseOf s.variant s.devaddr i = .ok p) :
      Serves s (((s.withPending rest).withAddr (addressLeft s.devaddr i)).withDelivery h p)

/-- Every step is one of these. -/
theorem serves_of_step {s t : State} (hstep : step s = .next t) : Serves s t := by
  cases hp : s.pending with
  | nil =>
    simp only [step, hp, Host.Outcome.next.injEq] at hstep
    exact hstep ▸ .idle hp
  | cons e rest =>
    cases e with
    | reset =>
      rw [step_reset hp] at hstep
      cases hstep
      exact .reset hp
    | resetDuring h r =>
      rw [step_resetDuring hp] at hstep
      cases hstep
      exact .resetDuring hp
    | request h r =>
      cases hd : decode s.variant r with
      | error why =>
        rw [step_refused hp hd] at hstep
        cases hstep
        exact .refused hp hd
      | ok i =>
        rw [step_request hp hd] at hstep
        obtain ⟨u, hexec, rfl⟩ := deliverOutcome_eq_next_iff.1 hstep
        obtain ⟨p, hr, rfl⟩ := exec_eq_next_iff.1 hexec
        exact .answered hp hd hr

/-! ## The address, the replies and the marks of a list of inputs -/

/-- A request the decoder accepts leaves the address its instruction leaves. -/
theorem addrAfter_accepted {v : Variant} {r : Request} {i : Instr} (hd : decode v r = .ok i) (a : DevAddr) (h : Nat)
    (es : List Event) : addrAfter v a (.request h r :: es) = addrAfter v (addressLeft a i) es := by
  simp only [addrAfter, hd]
  cases i <;> rfl

/-- A request the decoder refuses leaves the address as it was. -/
theorem addrAfter_refused {v : Variant} {r : Request} {why : DecodeError} (hd : decode v r = .error why)
    (a : DevAddr) (h : Nat) (es : List Event) : addrAfter v a (.request h r :: es) = addrAfter v a es := by
  simp only [addrAfter, hd]

/-- The reply on an otherwise empty state is the response the instruction has there (R29). -/
theorem replyTo_of_responseOf {v : Variant} {a : DevAddr} {i : Instr} {p : Response}
    (hr : responseOf v a i = .ok p) : replyTo v a i = some p := by
  simp [replyTo, exec_eq_answer, hr]

theorem addrAfter_append (v : Variant) (a : DevAddr) (es fs : List Event) :
    addrAfter v a (es ++ fs) = addrAfter v (addrAfter v a es) fs := by
  induction es generalizing a with
  | nil => rfl
  | cons e es ih =>
    cases e with
    | reset => exact ih _
    | resetDuring h r => exact ih _
    | request h r =>
      cases hd : decode v r with
      | error why => simpa only [List.cons_append, addrAfter_refused hd] using ih a
      | ok i => simpa only [List.cons_append, addrAfter_accepted hd] using ih _

theorem repliesTo_append (v : Variant) (a : DevAddr) (es fs : List Event) :
    repliesTo v a (es ++ fs) = repliesTo v a es ++ repliesTo v (addrAfter v a es) fs := by
  induction es generalizing a with
  | nil => rfl
  | cons e es ih =>
    cases e with
    | reset => exact ih _
    | resetDuring h r => exact ih _
    | request h r =>
      cases hd : decode v r with
      | error why => simpa only [List.cons_append, repliesTo, hd, addrAfter_refused hd] using ih a
      | ok i => simp only [List.cons_append, repliesTo, hd, addrAfter_accepted hd, ih, List.append_assoc]; rfl

theorem marksOf_append (v : Variant) (es fs : List Event) :
    marksOf v (es ++ fs) = marksOf v es ++ marksOf v fs := by
  induction es with
  | nil => rfl
  | cons e es ih =>
    cases e with
    | reset => exact ih
    | resetDuring h r => exact ih
    | request h r =>
      cases hd : decode v r with
      | error why => simp only [List.cons_append, marksOf, hd, ih]
      | ok i => simpa only [List.cons_append, marksOf, hd] using ih

/-! ## What a run leaves -/

/-- What `k` steps from `s` leave in `t`: the first `k` inputs are gone, and the address, the deliveries and the marks
are those of serving them in order (R20, R48, R203, R205); the parameters are unchanged (R232). -/
structure Leaves (k : Nat) (s t : State) : Prop where
  pending : t.pending = s.pending.drop k
  variant : t.variant = s.variant
  devaddr : t.devaddr = addrAfter s.variant s.devaddr (s.pending.take k)
  delivered : t.delivered = s.delivered ++ repliesTo s.variant s.devaddr (s.pending.take k)
  refusals : t.refusals = s.refusals ++ marksOf s.variant (s.pending.take k)

theorem Leaves.zero (s : State) : Leaves 0 s s := by
  constructor <;> simp [addrAfter, repliesTo, marksOf]

/-- Runs compose, since serving inputs in order does. -/
theorem Leaves.trans {j k : Nat} {s t u : State} (hst : Leaves j s t) (htu : Leaves k t u) :
    Leaves (j + k) s u where
  pending := by rw [htu.pending, hst.pending, List.drop_drop]
  variant := by rw [htu.variant, hst.variant]
  devaddr := by
    rw [htu.devaddr, hst.devaddr, hst.variant, hst.pending, List.take_add, addrAfter_append]
  delivered := by
    rw [htu.delivered, hst.delivered, hst.devaddr, hst.variant, hst.pending, List.take_add, repliesTo_append,
      List.append_assoc]
  refusals := by
    rw [htu.refusals, hst.refusals, hst.variant, hst.pending, List.take_add, marksOf_append, List.append_assoc]

/-- A step serves the oldest input, if there is one. -/
theorem leaves_of_serves {s t : State} (hs : Serves s t) : Leaves 1 s t := by
  cases hs with
  | idle hp => constructor <;> simp [hp, addrAfter, repliesTo, marksOf]
  | reset hp => constructor <;> simp [hp, addrAfter, repliesTo, marksOf]
  | resetDuring hp => constructor <;> simp [hp, addrAfter, repliesTo, marksOf]
  | refused hp hd => constructor <;> simp [hp, hd, refuse, addrAfter, repliesTo, marksOf]
  | answered hp hd hr =>
    constructor
    case devaddr => simp [hp, addrAfter_accepted hd, addrAfter]
    all_goals simp [hp, hd, replyTo_of_responseOf hr, repliesTo, marksOf]

/-- Every run leaves this, by induction on its steps. -/
theorem leaves_of_run {k : Nat} {s t : State} (hrun : Host.Core.run Sys2Proof.core k s = .next t) :
    Leaves k s t := by
  induction k generalizing s with
  | zero => exact run_zero hrun ▸ .zero s
  | succ k ih =>
    obtain ⟨u, hstep, hrest⟩ := run_succ hrun
    exact Nat.add_comm 1 k ▸ (leaves_of_serves (serves_of_step hstep)).trans (ih hrest)

/-- Settles O31: the address, the inputs and the parameters among what a run leaves. -/
theorem runsObserveTheLastAddressWritten : Obligations.RunsObserveTheLastAddressWritten := by
  intro k s t hrun
  have hleft := leaves_of_run hrun
  exact ⟨hleft.devaddr, hleft.pending, hleft.variant⟩

/-- Settles O32: the deliveries among what a run leaves. -/
theorem runsAnswerRequestsSerially : Obligations.RunsAnswerRequestsSerially := by
  intro k s t hrun
  exact (leaves_of_run hrun).delivered

/-! ## The legal responses, one lemma per kind -/

theorem respondOk_legal : respondOk.legal := .inl rfl

theorem raiseStatus_legal {st : Status} (hok : st ≠ .ok) (hrange : st ≠ .parameterOutOfRange) :
    (raiseStatus st).legal := .inr (.inl ⟨st, hok, hrange, rfl⟩)

theorem raiseOutOfRange_legal {k : BitVec 3} (hk : k = 0 ∨ k = 1) : (raiseOutOfRange k).legal :=
  .inr (.inr (.inl ⟨k, hk, rfl⟩))

theorem respondFrame_legal {tx : List Byte} (w : Bool) (htx : legalFrame tx) :
    (respondFrame tx.length tx w).legal := .inr (.inr (.inr (.inl ⟨tx, w, htx, rfl⟩)))

theorem respondChecksum_legal (c : Half) : (respondChecksum c).legal :=
  .inr (.inr (.inr (.inr (.inl ⟨c, rfl⟩))))

theorem respondSlots_legal {slots : List Nat} (hslots : legalSlots slots) : (respondSlots slots).legal :=
  .inr (.inr (.inr (.inr (.inr ⟨slots, hslots, rfl⟩))))

/-! ## The frames built and the slots listed are legal -/

theorem coveredBytes_length (op : Byte) (p : List Byte) : (coveredBytes op p).length = 4 + p.length := by
  simp [coveredBytes]; omega

/-- The checksum of a command frame is that of its covered bytes (R63, R100). -/
theorem checksumOf_frameOf (a : DevAddr) (op : Byte) (p : List Byte) :
    checksumOf (frameOf a op p) (12 + p.length) = BitVec.ofNat 16 (byteSum (coveredBytes op p)) := by
  have hlen : 12 + p.length - 8 = (coveredBytes op p).length := by rw [coveredBytes_length]; omega
  rw [checksumOf, frameOf_eq, hlen]
  simp

/-- The last two bytes of a command frame hold the sum of its covered bytes (R63). -/
theorem be16At_frameOf_checksum (a : DevAddr) (op : Byte) (p : List Byte) :
    be16At (frameOf a op p) (12 + p.length - 2) = byteSum (coveredBytes op p) % 65536 := by
  have hlen : 12 + p.length - 2 = ([0xEF, 0x01, a.a0, a.a1, a.a2, a.a3] ++ coveredBytes op p).length + 0 := by
    simp [coveredBytes_length]; omega
  rw [frameOf_eq, hlen, be16At_append_right, be16At_beBytes (Nat.mod_lt _ (by decide))]

/-- The Payload Length field counts the opcode, the payload and the checksum (R64). -/
theorem be16At_frameOf_length (a : DevAddr) (op : Byte) {p : List Byte} (hp : p.length + 3 < 65536) :
    be16At (frameOf a op p) 7 = p.length + 3 := by
  simp [frameOf_eq, coveredBytes, be16At, byteAt]
  omega

/-- The opcodes of the eight BUILD operations (R62). -/
def buildOpcodes : List Byte := [0x0C, 0x0D, 0x1F, 0x30, 0x31, 0x32, 0x33, 0x3C]

/-- The frame of R63 is legal for every opcode of a BUILD and every payload of at most 5 bytes (R65, R146). -/
theorem frameOf_legal (a : DevAddr) {op : Byte} {p : List Byte} (hop : op ∈ buildOpcodes) (hp : p.length ≤ 5) :
    legalFrame (frameOf a op p) := by
  rw [legalFrame, frameOf_length, be16At_frameOf_length a op (by omega), be16At_frameOf_checksum,
    checksumOf_frameOf]
  refine ⟨by omega, by omega, ?_, ?_, ?_, by omega, ⟨op, hop, ?_⟩, by simp⟩ <;> simp [frameOf_eq, coveredBytes]

/-- The first 100 occupied slots are a legal slot list (R173, R174). -/
theorem occupiedSlots_legal (rx : List Byte) : legalSlots (occupiedSlots rx) := by
  have hsub : (occupiedSlots rx).Sublist (List.range 104) := (List.take_sublist _ _).trans List.filter_sublist
  refine ⟨List.pairwise_lt_range.sublist hsub, List.length_take_le _ _, fun n hn => ?_⟩
  have hlt : n < 104 := List.mem_range.1 (hsub.subset hn)
  omega

/-! ## Every response is legal -/

theorem emitFrame_legal {a : DevAddr} {op : Byte} {p : List Byte} {w : Bool} {r : Response}
    (hop : op ∈ buildOpcodes) (hp : p.length ≤ 5) (h : emitFrame a op p w = .ok r) : r.legal := by
  rw [emitFrame_ok a op p w (by omega), ← frameOf_length a op p] at h
  cases h
  exact respondFrame_legal w (frameOf_legal a hop hp)

theorem checksumResponse_legal {len : Nat} {rx : List Byte} {r : Response} (h : checksumResponse len rx = .ok r) :
    r.legal := by
  unfold checksumResponse at h
  split at h
  · cases h
    exact raiseStatus_legal (by decide) (by decide)
  · split at h
    · cases h
      exact respondChecksum_legal _
    · cases h

/-- A gate's status is never that of an operand (R200). -/
theorem gateError_ne_parameterOutOfRange (k : Nat) : gateError k ≠ .parameterOutOfRange := by
  unfold gateError
  split <;> decide

theorem gateStatus_ne_parameterOutOfRange {a : DevAddr} {len : Nat} {rx : List Byte} {st : Status}
    (hlen : len ≤ rx.length) (h : gateStatus a len rx = .ok st) : st ≠ .parameterOutOfRange := by
  obtain hall | ⟨k, hk⟩ := gates_cases a len rx
  · rw [gateStatus_ok hlen hall] at h
    cases h
    decide
  · rw [gateStatus_error hlen hk] at h
    cases h
    exact gateError_ne_parameterOutOfRange k

theorem validateResponse_legal {a : DevAddr} {len : Nat} {rx : List Byte} {r : Response} (hlen : len ≤ rx.length)
    (h : validateResponse a len rx = .ok r) : r.legal := by
  obtain ⟨st, hst⟩ := gateStatus_answers a hlen
  simp only [validateResponse, hst, bind, Except.bind] at h
  split at h
  · cases h
    exact respondOk_legal
  · next hok =>
    cases h
    exact raiseStatus_legal hok (gateStatus_ne_parameterOutOfRange hlen hst)

theorem parseIndexResponse_legal {a : DevAddr} {len : Nat} {rx : List Byte} {r : Response} (hlen : len ≤ rx.length)
    (h : parseIndexResponse a len rx = .ok r) : r.legal := by
  obtain ⟨st, hst⟩ := gateStatus_answers a hlen
  simp only [parseIndexResponse, hst, bind, Except.bind] at h
  split at h
  · next hok =>
    cases h
    exact raiseStatus_legal hok (gateStatus_ne_parameterOutOfRange hlen hst)
  · split at h
    · cases h
      exact raiseStatus_legal (by decide) (by decide)
    · next hshort =>
      rw [scanBytes_ok hlen (Nat.le_of_not_lt hshort)] at h
      cases h
      exact respondSlots_legal (occupiedSlots_legal rx)

/-- The responses of the twelve operations are among those of R25, R26, R200 and R201. -/
theorem responseOf_legal {v : Variant} {a : DevAddr} {i : Instr} {r : Response} (hwf : wellFormed v i = true)
    (h : responseOf v a i = .ok r) : r.legal := by
  cases i with
  | checksum len rx => exact checksumResponse_legal h
  | validate len rx => exact validateResponse_legal (length_le_of_wellFormedRx hwf) h
  | parseIndex len rx => exact parseIndexResponse_legal (length_le_of_wellFormedRx hwf) h
  | setAddr n =>
    cases h
    exact respondOk_legal
  | buildEmpty => exact emitFrame_legal (by decide) (by simp) h
  | buildCancel => exact emitFrame_legal (by decide) (by simp) h
  | buildSleep => exact emitFrame_legal (by decide) (by simp) h
  | buildReadIndexTable page => exact emitFrame_legal (by decide) (by simp [payloadReadIndexTable]) h
  | buildAutoIdentify id score flags =>
    exact emitFrame_legal (by decide) (by simp [payloadAutoIdentify, placeHalf]) h
  | buildAutoEnroll id times flags =>
    simp only [responseOf] at h
    split at h
    · cases h
      exact raiseOutOfRange_legal (.inr rfl)
    · exact emitFrame_legal (by decide) (by simp [payloadAutoEnroll, placeHalf]) h
  | buildControlLed fc scol ecol cyc =>
    simp only [responseOf] at h
    split at h
    · cases h
      exact raiseOutOfRange_legal (.inl rfl)
    · exact emitFrame_legal (by decide) (by simp [payloadControlLed]) h
  | buildDeleteChar id count =>
    simp only [responseOf] at h
    split at h
    · cases h
      exact raiseOutOfRange_legal (.inl rfl)
    · split at h
      · cases h
        exact raiseOutOfRange_legal (.inr rfl)
      · exact emitFrame_legal (by decide) (payloadDeleteChar_length_le v id count) h

/-! ## Good states -/

/-- A delivery of a legal response leaves a good state good, whatever else the state holds. -/
theorem State.good_withDelivery {s : State} (h : Nat) {r : Response}
    (hs : ∀ d ∈ s.delivered, d.response.legal) (hr : r.legal) : (s.withDelivery h r).good := by
  refine ⟨State.withDelivery_response s h r, fun d hd => ?_⟩
  rw [State.withDelivery_delivered, List.mem_append, List.mem_singleton] at hd
  obtain hold | rfl := hd
  · exact hs d hold
  · exact hr

/-- Settles O43: only an answered request delivers anything, and what it delivers is legal; every other step keeps the
response and the deliveries. -/
theorem goodStatesStayGood : Obligations.GoodStatesStayGood := by
  intro s t hgood hstep
  obtain ⟨hnone, hlegal⟩ := hgood
  cases serves_of_step hstep with
  | idle hp => exact ⟨hnone, hlegal⟩
  | reset hp => exact ⟨hnone, hlegal⟩
  | resetDuring hp => exact ⟨hnone, hlegal⟩
  | refused hp hd => exact ⟨hnone, hlegal⟩
  | answered hp hd hr =>
    exact State.good_withDelivery _ hlegal (responseOf_legal (wellFormed_of_decode hd) hr)

/-! ## Reading a response -/

theorem presentField_none {α : Type} {f : Option α} (h : f = none) :
    presentField f = .error .absentResponseField := by
  rw [h, presentField]

theorem presentField_some {α : Type} {f : Option α} (x : α) (h : f = some x) : presentField f = .ok x := by
  rw [h, presentField]

/-- Settles O41: every reading function is `presentField` of its own field. -/
theorem absentResponseFieldsFault : Obligations.AbsentResponseFieldsFault := by
  intro r
  exact ⟨presentField_none, presentField_some, presentField_none, presentField_some, presentField_none,
    presentField_some, presentField_none, presentField_some, presentField_none, presentField_some,
    presentField_none, presentField_some, presentField_none, presentField_some⟩

end Sys2Proof.Machine

/-! SUPPORT. What reaches the block and what it reads: no byte of `RX` from `LEN` on, one input a step, and every input
of every interleaving. The lemmas say that an operation on `RX` is one on its first `LEN` bytes, that each step and so
each run answers a next state, and how many replies and marks one host's share of a list of inputs has. -/

namespace Sys2Proof.Machine

/-! ## No operation faults on well-formed operands -/

/-- Settles O42: `exec_of_wellFormed`, which also names the next state. -/
theorem wellFormedInstructionsNeverFault : Obligations.WellFormedInstructionsNeverFault := by
  intro i s hwf
  obtain ⟨p, hexec⟩ := exec_of_wellFormed hwf
  exact ⟨_, hexec⟩

/-! ## An operation on `RX` is one on its first `LEN` bytes -/

/-- A read is inside the first `LEN` bytes of `RX` or it is the same fault (R41). -/
theorem memRead_take (rx : List Byte) (len addr n : Nat) :
    memRead (rx.take len) len addr n = memRead rx len addr n := by
  by_cases hin : addr + n ≤ len
  · have hbytes : ((rx.take len).drop addr).take n = (rx.drop addr).take n := by
      rw [List.drop_take, List.take_take, min_eq_left (by omega)]
    have hlength : addr + n ≤ (rx.take len).length ↔ addr + n ≤ rx.length := by
      rw [List.length_take]; omega
    simp only [memRead, hbytes, hlength]
  · rw [memRead_fault (by omega), memRead_fault (by omega)]

theorem ckRx_take (rx : List Byte) (len : Nat) : ckRx (rx.take len) len = ckRx rx len := by
  simp only [ckRx, memRead_take]

theorem checksumResponse_take (len : Nat) (rx : List Byte) :
    checksumResponse len (rx.take len) = checksumResponse len rx := by
  simp only [checksumResponse, ckRx_take]

theorem gateStatus_take (a : DevAddr) (len : Nat) (rx : List Byte) :
    gateStatus a len (rx.take len) = gateStatus a len rx := by
  simp only [gateStatus, memRead_take, ckRx_take]

theorem validateResponse_take (a : DevAddr) (len : Nat) (rx : List Byte) :
    validateResponse a len (rx.take len) = validateResponse a len rx := by
  simp only [validateResponse, gateStatus_take]

theorem scanBytes_take (rx : List Byte) (len : Nat) (ks slots : List Nat) :
    scanBytes (rx.take len) len ks slots = scanBytes rx len ks slots := by
  induction ks generalizing slots with
  | nil => rfl
  | cons k ks ih => simp only [scanBytes, memRead_take, ih]

theorem parseIndexResponse_take (a : DevAddr) (len : Nat) (rx : List Byte) :
    parseIndexResponse a len (rx.take len) = parseIndexResponse a len rx := by
  simp only [parseIndexResponse, gateStatus_take, scanBytes_take]

/-- Settles O23: each of the three responses is the one to the first `LEN` bytes, which the two buffers share. -/
theorem bytesPastLenAreNeverRead : Obligations.BytesPastLenAreNeverRead := by
  intro len rx rx' s _ _ hsame
  have hck : checksumResponse len rx = checksumResponse len rx' := by
    rw [← checksumResponse_take, hsame, checksumResponse_take]
  have hval : validateResponse s.devaddr len rx = validateResponse s.devaddr len rx' := by
    rw [← validateResponse_take, hsame, validateResponse_take]
  have hidx : parseIndexResponse s.devaddr len rx = parseIndexResponse s.devaddr len rx' := by
    rw [← parseIndexResponse_take, hsame, parseIndexResponse_take]
  exact ⟨congrArg (answer s) hck, congrArg (answer s) hval, congrArg (answer s) hidx⟩

/-! ## Every step and every run answers a next state -/

/-- Settles O7: only an answered request delivers anything, one response, and only a refused one leaves a mark. -/
theorem stepTakesOneInput : Obligations.StepTakesOneInput := by
  intro s t hstep
  have hleft := leaves_of_serves (serves_of_step hstep)
  refine ⟨hleft.pending.trans List.drop_one, hleft.variant, ?_⟩
  cases serves_of_step hstep with
  | idle hp => exact .inl ⟨rfl, rfl⟩
  | reset hp => exact .inl ⟨rfl, rfl⟩
  | resetDuring hp => exact .inl ⟨rfl, rfl⟩
  | refused hp hd => exact .inr (.inr ⟨rfl, _, rfl⟩)
  | answered hp hd hr => exact .inr (.inl ⟨_, rfl, rfl⟩)

/-- Whatever input comes first, and also if none does, the block goes on (R203, R205, R215, R216). -/
theorem step_answers_next (s : State) : ∃ t, step s = .next t := by
  cases hp : s.pending with
  | nil => exact ⟨s, by rw [step, hp]⟩
  | cons e rest =>
    cases e with
    | reset => exact ⟨_, step_reset hp⟩
    | resetDuring h r => exact ⟨_, step_resetDuring hp⟩
    | request h r =>
      cases hd : decode s.variant r with
      | error why => exact ⟨_, step_refused hp hd⟩
      | ok i =>
        obtain ⟨p, -, hstep⟩ := step_answers hp hd
        exact ⟨_, hstep⟩

/-- A run of one step more begins with that step. -/
theorem run_of_step {s u : State} (hstep : step s = .next u) (k : Nat) :
    Host.Core.run Sys2Proof.core (k + 1) s = Host.Core.run Sys2Proof.core k u := by
  have hcore : Sys2Proof.core.step s = .next u := hstep
  simp only [Host.Core.run, hcore]

/-- No run stops (R215, R243). -/
theorem run_answers_next (k : Nat) (s : State) : ∃ t, Host.Core.run Sys2Proof.core k s = .next t := by
  induction k generalizing s with
  | zero => exact ⟨s, rfl⟩
  | succ k ih =>
    obtain ⟨u, hstep⟩ := step_answers_next s
    obtain ⟨t, hrun⟩ := ih u
    exact ⟨t, (run_of_step hstep k).trans hrun⟩

/-! ## One host's share of the replies and of the marks -/

theorem accepted_of_ok {v : Variant} {r : Request} {i : Instr} (hd : decode v r = .ok i) : accepted v r = true := by
  rw [accepted, hd]

theorem accepted_of_error {v : Variant} {r : Request} {why : DecodeError} (hd : decode v r = .error why) :
    accepted v r = false := by
  rw [accepted, hd]

/-- An accepted request adds one reply, to the host that asked (R203, R207). -/
theorem repliesTo_accepted {v : Variant} {r : Request} {i : Instr} (hd : decode v r = .ok i) (a : DevAddr) (h : Nat)
    (es : List Event) : ∃ p, repliesTo v a (.request h r :: es) =
      { host := h, response := p } :: repliesTo v (addressLeft a i) es := by
  obtain ⟨p, hp⟩ := responseOf_answers a (wellFormed_of_decode hd)
  have haddr : addrAfter v a [.request h r] = addressLeft a i := addrAfter_accepted hd a h []
  exact ⟨p, by simp only [repliesTo, hd, replyTo_of_responseOf hp, haddr]; rfl⟩

/-- A host gets as many replies as the inputs hold accepted requests of its own, whatever the address and whatever
other hosts ask between them (R48, R203). -/
theorem repliesTo_host_length (v : Variant) (a : DevAddr) (h : Nat) (es : List Event) :
    ((repliesTo v a es).filter fun d => d.host == h).length = ((requestsOf h es).filter (accepted v)).length := by
  induction es generalizing a with
  | nil => rfl
  | cons e es ih =>
    cases e with
    | reset => exact ih _
    | resetDuring h' r => exact ih _
    | request h' r =>
      cases hd : decode v r with
      | error why =>
        have hno : repliesTo v a (.request h' r :: es) = repliesTo v a es := by simp only [repliesTo, hd]
        rw [hno]
        by_cases hself : h' = h <;> simp [ih, requestsOf, hself, accepted_of_error hd]
      | ok i =>
        obtain ⟨p, hone⟩ := repliesTo_accepted hd a h' es
        rw [hone]
        by_cases hself : h' = h <;> simp [ih, requestsOf, hself, accepted_of_ok hd]

/-- A host leaves as many marks as the inputs hold refused requests of its own (R205). -/
theorem marksOf_host_length (v : Variant) (h : Nat) (es : List Event) :
    ((marksOf v es).filter fun m => m.host == h).length =
      ((requestsOf h es).filter fun r => !accepted v r).length := by
  induction es with
  | nil => rfl
  | cons e es ih =>
    cases e with
    | reset => exact ih
    | resetDuring h' r => exact ih
    | request h' r =>
      cases hd : decode v r with
      | error why =>
        by_cases hself : h' = h <;> simp [marksOf, hd, ih, requestsOf, hself, accepted_of_error hd]
      | ok i =>
        by_cases hself : h' = h <;> simp [marksOf, hd, ih, requestsOf, hself, accepted_of_ok hd]

/-- Settles O35: the run over all inputs leaves the replies and the marks of all of them, and each host's share of
these is counted on its own stream. -/
theorem everyHostIsAnsweredUnderEveryInterleaving : Obligations.EveryHostIsAnsweredUnderEveryInterleaving := by
  intro streams s hstreams hdelivered hrefusals
  obtain ⟨t, hrun⟩ := run_answers_next s.pending.length s
  have hleft := leaves_of_run hrun
  have hreplies : t.delivered = repliesTo s.variant s.devaddr s.pending := by
    simpa [hdelivered] using hleft.delivered
  have hmarks : t.refusals = marksOf s.variant s.pending := by
    simpa [hrefusals] using hleft.refusals
  refine ⟨t, hrun, by simpa using hleft.pending, fun h => ?_⟩
  rw [hreplies, hmarks, ← hstreams h]
  exact ⟨repliesTo_host_length .., marksOf_host_length ..⟩

end Sys2Proof.Machine

/-! SUPPORT. The requests the block refuses and the frames it accepts. A request that the decoder accepts is the
encoding of a well-formed instruction, and no encoding of one is a request of R72; a buffer is cut into the fields of a received
frame, and of these the six gates and the frame of R66 ask the same. -/

namespace Sys2Proof.Machine

/-! ## The operation map and its textual form -/

/-- Settles O10: each of the six requests is the encoding of a well-formed instruction. -/
theorem operationMapWordsDecode : Obligations.OperationMapWordsDecode :=
  ⟨decode_encode (i := .checksum _ _) (by decide), decode_encode (i := .buildAutoEnroll _ _ _) rfl,
    decode_encode (i := .buildEmpty) rfl, decode_encode (i := .validate _ _) (by decide),
    decode_encode (i := .parseIndex _ _) (by decide), decode_encode (i := .setAddr _) rfl⟩

/-- Settles O11: the assembler runs on the four lines. -/
theorem requestTextExamplesAreRead : Obligations.RequestTextExamplesAreRead :=
  ⟨by decide, by decide, by decide, by decide⟩

/-! ## The requests of R72 -/

/-- The twelve words of R62, class and opcode: one of the five classes, an opcode of R62 under BUILD, and 0 in every
other class. -/
theorem reqsel_legal (o : Operation) :
    (1 ≤ o.reqsel.toNat / 256 ∧ o.reqsel.toNat / 256 ≤ 5) ∧
      (o.reqsel.toNat / 256 = 2 → o.reqsel.toNat % 256 ∈ [0x0C, 0x0D, 0x1F, 0x30, 0x31, 0x32, 0x33, 0x3C]) ∧
      (o.reqsel.toNat / 256 ≠ 2 → o.reqsel.toNat % 256 = 0) := by
  cases o <;> decide

theorem reqsel_injective : Function.Injective Operation.reqsel := by
  intro o o' h
  have hsel : selectOperation o.reqsel = .ok o' := by rw [h, selectOperation_reqsel]
  rw [selectOperation_reqsel] at hsel
  exact Except.ok.inj hsel

/-- An instruction's own fields leave out none of its operands (R24). -/
theorem not_missingOperand_fields (i : Instr) : ¬ missingOperand i.fields i.operation := by
  cases i <;> simp [Instr.fields, Instr.operation, missingOperand]

/-- A well-formed instruction that carries a receive buffer keeps the bounds of R72. -/
theorem rx_bounds_of_wellFormed {v : Variant} {i : Instr} {len : Nat} {rx : List Byte} (hwf : wellFormed v i = true)
    (hlen : i.fields.len = some len) (hrx : i.fields.rx = some rx) : len ≤ rx.length ∧ len ≤ v.rxMax := by
  cases i with
  | checksum _ _ | validate _ _ | parseIndex _ _ =>
    cases hlen
    cases hrx
    simpa [wellFormed, wellFormedRx] using hwf
  | _ => cases hlen

/-- A request that cannot be decoded is refused: it leaves its mark and nothing else (R205). -/
theorem step_marks_of_not_decoded {s : State} {h : Nat} {r : Request} {rest : List Event}
    (hp : s.pending = .request h r :: rest) (hno : ∀ i, decode s.variant r ≠ .ok i) :
    ∃ why, step s = .next { s with pending := rest, refusals := s.refusals ++ [{ host := h, why := why }] } := by
  cases hd : decode s.variant r with
  | ok i => exact absurd hd (hno i)
  | error why => exact ⟨why, step_refused hp hd⟩

/-- A step on a request that leaves no mark has answered the instruction the request decodes to (R203, R205). -/
theorem answered_of_unmarked {s t : State} {h : Nat} {r : Request} {rest : List Event}
    (hp : s.pending = .request h r :: rest) (hstep : step s = .next t) (hmarks : t.refusals = s.refusals) :
    ∃ i p, decode s.variant r = .ok i ∧ t.delivered = s.delivered ++ [{ host := h, response := p }] := by
  cases hd : decode s.variant r with
  | ok i =>
    obtain ⟨p, -, hanswer⟩ := step_answers hp hd
    rw [hanswer] at hstep
    cases hstep
    exact ⟨i, p, rfl, rfl⟩
  | error why =>
    rw [step_refused hp hd] at hstep
    cases hstep
    simp [refuse] at hmarks

/-- Settles O5: a request that decodes is the encoding of a well-formed instruction, and each cause of R72 contradicts
one part of that: the word of its operation, its operand fields, or the bounds it keeps. -/
theorem reservedAndIllegalRequestsAreRefused : Obligations.ReservedAndIllegalRequestsAreRefused := by
  intro s h r rest hp
  refine ⟨fun hcause => step_marks_of_not_decoded hp fun i hd => ?_, fun t hstep hmarks => ?_⟩
  · obtain ⟨rfl, hwf⟩ := decodeAcceptsOnlyEncodings _ _ _ hd
    obtain ⟨hclass, hbuild, hother⟩ := reqsel_legal i.operation
    rcases hcause with hopsel | ⟨htwo, hcmd⟩ | ⟨htwo, hcmd⟩ | ⟨o, ho, hmissing⟩ | ⟨o, -, -, len, rx, hlen, hrx, hbad⟩
    · simp only [encode] at hopsel
      omega
    · exact hcmd (hbuild htwo)
    · exact hcmd (hother htwo)
    · obtain rfl := reqsel_injective ho
      exact not_missingOperand_fields i hmissing
    · have hbounds := rx_bounds_of_wellFormed hwf hlen hrx
      omega
  · obtain ⟨i, p, hd, hdelivered⟩ := answered_of_unmarked hp hstep hmarks
    obtain ⟨rfl, -⟩ := decodeAcceptsOnlyEncodings _ _ _ hd
    exact ⟨⟨i.operation, rfl⟩, p, hdelivered⟩

/-! ## VALIDATE answers OK exactly where the gates pass -/

/-- VALIDATE answers OK where all six gates pass, and where one fails its status is not OK (R150, R157). -/
theorem validateResponse_eq_respondOk_iff {a : DevAddr} {len : Nat} {rx : List Byte} (hlen : len ≤ rx.length) :
    validateResponse a len rx = .ok respondOk ↔ allGatesPass a len rx := by
  constructor
  · intro h
    obtain hall | ⟨k, hk⟩ := gates_cases a len rx
    · exact hall
    · have hstatus := gateStatus_error hlen hk
      obtain ⟨h1, h6, -⟩ := hk
      have hne : gateError k ≠ .ok := gateError_ne_ok h1 h6
      simp only [validateResponse, hstatus, bind, Except.bind, if_neg hne] at h
      cases hne (congrArg Response.status (Except.ok.inj h))
  · intro hall
    simp only [validateResponse, gateStatus_ok hlen hall]
    rfl

theorem execValidate_ok_iff {len : Nat} {rx : List Byte} {s : State} (hlen : len ≤ rx.length) :
    exec (.validate len rx) s = .next { s with response := some { status := .ok } } ↔
      allGatesPass s.devaddr len rx := by
  rw [← validateResponse_eq_respondOk_iff hlen, exec_eq_next_iff]
  constructor
  · rintro ⟨p, hp, hs⟩
    obtain rfl : respondOk = p := Option.some.inj (congrArg State.response hs)
    exact hp
  · intro hok
    exact ⟨respondOk, hok, rfl⟩

/-- The gates read no byte from `LEN` on (R41). -/
theorem allGatesPass_take {a : DevAddr} {len : Nat} {rx : List Byte} (hlen : len ≤ rx.length) :
    allGatesPass a len (rx.take len) ↔ allGatesPass a len rx := by
  rw [← validateResponse_eq_respondOk_iff hlen, ← validateResponse_take,
    validateResponse_eq_respondOk_iff (by simp [hlen])]

/-! ## The fields of a received frame -/

theorem devAddr_eq_iff (a b : DevAddr) :
    a = b ↔ a.a0 = b.a0 ∧ a.a1 = b.a1 ∧ a.a2 = b.a2 ∧ a.a3 = b.a3 := by
  cases a
  cases b
  simp

/-- The fields of a frame that holds at least one payload byte (R66): header, address, type, length, payload,
checksum. -/
structure ReceivedFields where
  h0 : Byte
  h1 : Byte
  addr : DevAddr
  type : Byte
  lenHi : Byte
  lenLo : Byte
  payload : List Byte
  ckHi : Byte
  ckLo : Byte

namespace ReceivedFields

/-- The bytes the checksum of a frame with these fields covers (R100). -/
def covered (f : ReceivedFields) : List Byte := [f.type, f.lenHi, f.lenLo] ++ f.payload

/-- The frame with these fields (R66). -/
def bytes (f : ReceivedFields) : List Byte :=
  [f.h0, f.h1] ++ f.addr.bytes ++ f.covered ++ [f.ckHi, f.ckLo]

theorem covered_length (f : ReceivedFields) : f.covered.length = f.payload.length + 3 := by
  simp [covered]

theorem bytes_length (f : ReceivedFields) : f.bytes.length = f.payload.length + 11 := by
  simp [bytes, covered_length, DevAddr.bytes]

/-- A buffer of at least 12 bytes is cut into these fields, with at least one byte of payload. -/
theorem exists_bytes_eq {xs : List Byte} (h : 12 ≤ xs.length) :
    ∃ f : ReceivedFields, 1 ≤ f.payload.length ∧ f.bytes = xs := by
  match xs, h with
  | b0 :: b1 :: b2 :: b3 :: b4 :: b5 :: b6 :: b7 :: b8 :: rest, h =>
    simp only [List.length_cons] at h
    obtain ⟨ckHi, ckLo, hck⟩ : ∃ hi lo, rest.drop (rest.length - 2) = [hi, lo] :=
      List.length_eq_two.1 (by rw [List.length_drop]; omega)
    refine ⟨⟨b0, b1, ⟨b2, b3, b4, b5⟩, b6, b7, b8, rest.take (rest.length - 2), ckHi, ckLo⟩, ?_, ?_⟩
    · simp only [List.length_take]
      omega
    · simp [bytes, covered, DevAddr.bytes, ← hck]

/-- The checksum of a frame is the sum of the bytes it covers (R100). -/
theorem checksumOf_bytes (f : ReceivedFields) :
    checksumOf f.bytes f.bytes.length = BitVec.ofNat 16 (byteSum f.covered) := by
  have hlen : f.bytes.length - 8 = f.covered.length := by rw [bytes_length, covered_length]; omega
  have hdrop : f.bytes.drop 6 = f.covered ++ [f.ckHi, f.ckLo] := by simp [bytes, DevAddr.bytes]
  rw [checksumOf, hlen, hdrop, List.take_left]

/-- The length field stands at index 7 (R66). -/
theorem be16At_bytes_length (f : ReceivedFields) : be16At f.bytes 7 = f.lenHi.toNat * 256 + f.lenLo.toNat := by
  simp [be16At, byteAt, bytes, covered, DevAddr.bytes]

/-- The checksum field is the last two bytes (R66). -/
theorem be16At_bytes_checksum (f : ReceivedFields) :
    be16At f.bytes (f.bytes.length - 2) = f.ckHi.toNat * 256 + f.ckLo.toNat := by
  have hindex : f.bytes.length - 2 = ([f.h0, f.h1] ++ f.addr.bytes ++ f.covered).length + 0 := by
    rw [bytes, List.length_append]
    rfl
  rw [hindex, bytes, be16At_append_right]
  rfl

/-- What the six gates ask of the fields of a frame (R151–R156). -/
theorem allGatesPass_bytes_iff {a : DevAddr} {f : ReceivedFields} (hp : 1 ≤ f.payload.length) :
    allGatesPass a f.bytes.length f.bytes ↔ f.h0 = 0xEF ∧ f.h1 = 0x01 ∧ f.addr = a ∧ f.type = 0x07 ∧
      f.lenHi.toNat * 256 + f.lenLo.toNat = f.payload.length + 2 ∧
      f.ckHi.toNat * 256 + f.ckLo.toNat = byteSum f.covered % 65536 := by
  have hlength : gatePasses a f.bytes.length f.bytes 1 := by
    simp only [gatePasses, bytes_length]
    omega
  have hheader : gatePasses a f.bytes.length f.bytes 2 ↔ f.h0 = 0xEF ∧ f.h1 = 0x01 := by
    simp [gatePasses, bytes]
  have haddr : gatePasses a f.bytes.length f.bytes 3 ↔ f.addr = a := by
    simp [gatePasses, bytes, DevAddr.bytes, devAddr_eq_iff]
  have htype : gatePasses a f.bytes.length f.bytes 4 ↔ f.type = 0x07 := by
    simp [gatePasses, bytes, covered, DevAddr.bytes]
  have hdeclared : gatePasses a f.bytes.length f.bytes 5 ↔
      f.lenHi.toNat * 256 + f.lenLo.toNat = f.payload.length + 2 := by
    simp only [gatePasses, be16At_bytes_length, bytes_length]
    omega
  have hchecksum : gatePasses a f.bytes.length f.bytes 6 ↔
      f.ckHi.toNat * 256 + f.ckLo.toNat = byteSum f.covered % 65536 := by
    simp only [gatePasses, be16At_bytes_checksum, checksumOf_bytes, BitVec.toNat_ofNat, Nat.reducePow]
  rw [allGatesPass_iff, hheader, haddr, htype, hdeclared, hchecksum]
  simp only [hlength, true_and, and_assoc]

end ReceivedFields

/-! ## The frames of R66 -/

/-- Two bytes hold a number of 16 bits where they are its `hi8` and `lo8` (R12). -/
theorem be16_eq_iff {hi lo : Byte} {v : Nat} (hv : v < 65536) :
    hi.toNat * 256 + lo.toNat = v ↔ hi = BitVec.ofNat 8 (v / 256) ∧ lo = BitVec.ofNat 8 v := by
  have := hi.isLt
  have := lo.isLt
  simp only [BitVec.toNat_eq, BitVec.toNat_ofNat]
  omega

/-- The bytes of a response frame that its checksum covers: type, length, payload (R66). -/
def responseCovered (p : List Byte) : List Byte :=
  [0x07, BitVec.ofNat 8 ((p.length + 2) / 256), BitVec.ofNat 8 (p.length + 2)] ++ p

/-- The fields of the response frame for the payload `p` under the address `a` (R66). -/
def responseFields (a : DevAddr) (p : List Byte) : ReceivedFields where
  h0 := 0xEF
  h1 := 0x01
  addr := a
  type := 0x07
  lenHi := BitVec.ofNat 8 ((p.length + 2) / 256)
  lenLo := BitVec.ofNat 8 (p.length + 2)
  payload := p
  ckHi := BitVec.ofNat 8 (byteSum (responseCovered p) % 65536 / 256)
  ckLo := BitVec.ofNat 8 (byteSum (responseCovered p) % 65536)

theorem responseFields_bytes (a : DevAddr) (p : List Byte) : (responseFields a p).bytes = responseFrame a p := by
  rw [responseFrame_eq, beBytes_two]
  rfl

/-- Fields for which all gates pass are those of the response frame for their payload, which the length field
bounds (R66, R155). -/
theorem eq_responseFields_of_gates {a : DevAddr} {f : ReceivedFields} (hp : 1 ≤ f.payload.length)
    (hall : allGatesPass a f.bytes.length f.bytes) :
    f.payload.length + 2 < 65536 ∧ f = responseFields a f.payload := by
  obtain ⟨hh0, hh1, haddr, htype, hdeclared, hchecksum⟩ := (ReceivedFields.allGatesPass_bytes_iff hp).1 hall
  have hlt : f.payload.length + 2 < 65536 := by
    have := f.lenHi.isLt
    have := f.lenLo.isLt
    omega
  obtain ⟨hlenHi, hlenLo⟩ := (be16_eq_iff hlt).1 hdeclared
  have hcovered : f.covered = responseCovered f.payload := by
    rw [ReceivedFields.covered, htype, hlenHi, hlenLo, responseCovered]
  rw [hcovered] at hchecksum
  obtain ⟨hckHi, hckLo⟩ := (be16_eq_iff (Nat.mod_lt _ (by decide))).1 hchecksum
  refine ⟨hlt, ?_⟩
  cases f
  rw [responseFields, ReceivedFields.mk.injEq]
  exact ⟨hh0, hh1, haddr, htype, hlenHi, hlenLo, rfl, hckHi, hckLo⟩

/-- The response frame of R66 passes all gates, whatever its payload. -/
theorem responseFields_gates (a : DevAddr) {p : List Byte} (hp : 1 ≤ p.length) (hlt : p.length + 2 < 65536) :
    allGatesPass a (responseFields a p).bytes.length (responseFields a p).bytes :=
  (ReceivedFields.allGatesPass_bytes_iff hp).2 ⟨rfl, rfl, rfl, rfl, (be16_eq_iff hlt).2 ⟨rfl, rfl⟩,
    (be16_eq_iff (Nat.mod_lt _ (by decide))).2 ⟨rfl, rfl⟩⟩

/-- Settles O22: VALIDATE's answer is that of the gates on the first `LEN` bytes; cut into fields, these pass the gates
exactly where they are the fields of a response frame. -/
theorem validateAcceptsExactlyResponseFrames : Obligations.ValidateAcceptsExactlyResponseFrames := by
  intro len rx s hlen
  have hlength : (rx.take len).length = len := List.length_take_of_le hlen
  rw [execValidate_ok_iff hlen, ← allGatesPass_take hlen]
  constructor
  · intro hall
    have h12 : 12 ≤ len := hall 1 (by decide) (by decide)
    obtain ⟨f, hp, hf⟩ := ReceivedFields.exists_bytes_eq (xs := rx.take len) (by omega)
    have hbytes := f.bytes_length
    rw [hf, hlength] at hbytes
    obtain ⟨hlt, hfields⟩ := eq_responseFields_of_gates (a := s.devaddr) hp (by rwa [hf, hlength])
    exact ⟨f.payload, hp, hlt, hbytes, by rw [← responseFields_bytes, ← hfields, hf]⟩
  · rintro ⟨p, hp, hlt, -, hframe⟩
    have hall := responseFields_gates s.devaddr hp hlt
    rwa [responseFields_bytes, ← hframe, hlength] at hall

end Sys2Proof.Machine

/-! SUPPORT. The checksum: what CHECKSUM answers, when two buffers have one checksum, and what a BUILD's frame shares
under two addresses. One lemma says which frame a BUILD has, if any, under every address at once. -/

namespace Sys2Proof.Machine

/-! ## What CHECKSUM answers -/

/-- 8 bytes or fewer have no checksum (R102). -/
theorem checksumResponse_short {len : Nat} (rx : List Byte) (h8 : len ≤ 8) :
    checksumResponse len rx = .ok (raiseStatus .checksumInputTooShort) := by
  rw [checksumResponse, if_pos h8]

/-- More than 8 bytes have the checksum of R100 (R101). -/
theorem checksumResponse_long {len : Nat} {rx : List Byte} (h8 : 8 < len) (hlen : len ≤ rx.length) :
    checksumResponse len rx = .ok (respondChecksum (checksumOf rx len)) := by
  rw [checksumResponse, if_neg (by omega), ckRx_ok hlen h8]

/-- CHECKSUM of 8 bytes or fewer changes the response alone (R102). -/
theorem exec_checksum_short {len : Nat} (rx : List Byte) (s : State) (h8 : len ≤ 8) :
    exec (.checksum len rx) s = .next { s with response := some { status := .checksumInputTooShort } } :=
  exec_eq_next_iff.2 ⟨_, checksumResponse_short rx h8, rfl⟩

/-- CHECKSUM of more than 8 bytes changes the response alone (R101). -/
theorem exec_checksum_long {len : Nat} {rx : List Byte} (s : State) (h8 : 8 < len) (hlen : len ≤ rx.length) :
    exec (.checksum len rx) s =
      .next { s with response := some { status := .ok, cksum := some (checksumOf rx len) } } :=
  exec_eq_next_iff.2 ⟨_, checksumResponse_long h8 hlen, rfl⟩

/-- Settles O12: the two cases of CHECKSUM, by `LEN`. -/
theorem checksumSumsItsRange : Obligations.ChecksumSumsItsRange := by
  intro len rx s hlen
  refine ⟨rfl, ?_⟩
  split
  · next hshort => exact exec_checksum_short rx s hshort
  · next hlong => exact exec_checksum_long s (Nat.lt_of_not_le hlong) hlen

/-! ## When two buffers have one checksum -/

/-- The checksum is the sum modulo 2^16, so two are equal where the sums agree modulo 2^16 (R100, R103). -/
theorem checksumOf_eq_iff {len : Nat} {rx rx' : List Byte} :
    checksumOf rx len = checksumOf rx' len ↔
      byteSum ((rx.drop 6).take (len - 8)) % 65536 = byteSum ((rx'.drop 6).take (len - 8)) % 65536 := by
  simp only [checksumOf, ← BitVec.toNat_inj, BitVec.toNat_ofNat, Nat.reducePow]

/-- The checksum reads the bytes at 6..`L-3` alone (R104). -/
theorem checksumOf_congr {len : Nat} {rx rx' : List Byte} (h8 : 8 < len)
    (hsame : ∀ i, 6 ≤ i → i + 3 ≤ len → rx[i]? = rx'[i]?) : checksumOf rx len = checksumOf rx' len := by
  have hrange : (rx.drop 6).take (len - 8) = (rx'.drop 6).take (len - 8) := by
    refine List.ext_getElem? fun j => ?_
    by_cases hj : j < len - 8
    · simpa [hj] using hsame (6 + j) (by omega) (by omega)
    · simp [hj]
  rw [checksumOf, checksumOf, hrange]

/-- Exchanging one byte moves the sum from that byte to the new one. -/
theorem byteSum_set {bs : List Byte} {j : Nat} (hj : j < bs.length) (b : Byte) :
    byteSum (bs.set j b) + bs[j].toNat = byteSum bs + b.toNat := by
  induction bs generalizing j with
  | nil => simp at hj
  | cons c bs ih =>
    cases j with
    | zero =>
      simp only [List.set_cons_zero, List.getElem_cons_zero, byteSum_cons]
      omega
    | succ j =>
      have hrest := ih (Nat.lt_of_succ_lt_succ hj)
      simp only [List.set_cons_succ, List.getElem_cons_succ, byteSum_cons]
      omega

/-- Another byte at one index of the range gives another checksum: two bytes differ by less than 2^16 (R104). -/
theorem checksumOf_set_ne {len i : Nat} {rx : List Byte} {b : Byte} (hlen : len ≤ rx.length) (h6 : 6 ≤ i)
    (hi : i + 3 ≤ len) (hb : rx[i]? ≠ some b) : checksumOf rx len ≠ checksumOf (rx.set i b) len := by
  obtain ⟨j, rfl⟩ := Nat.exists_eq_add_of_le h6
  have hj : j < ((rx.drop 6).take (len - 8)).length := by
    simp only [List.length_take, List.length_drop]
    omega
  have hset : ((rx.set (6 + j) b).drop 6).take (len - 8) = ((rx.drop 6).take (len - 8)).set j b := by
    rw [List.drop_set, if_neg (by omega), List.take_set, Nat.add_sub_cancel_left]
  have hne : rx[6 + j].toNat ≠ b.toNat := by
    simpa [List.getElem?_eq_getElem (show 6 + j < rx.length by omega), BitVec.toNat_inj] using hb
  have hsum := byteSum_set hj b
  simp only [List.getElem_take, List.getElem_drop] at hsum
  have hold := rx[6 + j].isLt
  have hnew := b.isLt
  rw [ne_eq, checksumOf_eq_iff, hset]
  omega

/-! ## The frame of a BUILD under every address -/

/-- What a BUILD answers under every address (R110–R113): the frame of one opcode and one payload, or the index of the
first operand out of range. -/
inductive Builds (v : Variant) (i : Instr) : Prop
  | frame (op : Byte) (p : List Byte) (w : Bool)
      (hr : ∀ a, responseOf v a i = .ok (respondFrame (12 + p.length) (frameOf a op p) w))
  | outOfRange (k : BitVec 3) (hr : ∀ a, responseOf v a i = .ok (raiseOutOfRange k))

theorem Builds.of_emitFrame {v : Variant} {i : Instr} {op : Byte} {p : List Byte} {w : Bool} (hp : p.length ≤ 5)
    (hr : ∀ a, responseOf v a i = emitFrame a op p w) : Builds v i :=
  .frame op p w fun a => by rw [hr a, emitFrame_ok a op p w (by omega)]

/-- The range checks and the payload of a BUILD do not read the address (R111, R112). -/
theorem builds_of_isBuild (v : Variant) {i : Instr} (h : isBuild i = true) : Builds v i := by
  cases i with
  | checksum len rx => cases h
  | validate len rx => cases h
  | parseIndex len rx => cases h
  | setAddr n => cases h
  | buildEmpty => exact .of_emitFrame (by simp) fun _ => rfl
  | buildCancel => exact .of_emitFrame (by simp) fun _ => rfl
  | buildSleep => exact .of_emitFrame (by simp) fun _ => rfl
  | buildReadIndexTable page => exact .of_emitFrame (by simp [payloadReadIndexTable]) fun _ => rfl
  | buildAutoIdentify id score flags =>
    exact .of_emitFrame (by simp [payloadAutoIdentify, placeHalf]) fun _ => rfl
  | buildAutoEnroll id times flags =>
    by_cases htimes : 5 < times.toNat
    · exact .outOfRange 1 fun a => if_pos htimes
    · exact .of_emitFrame (by simp [payloadAutoEnroll, placeHalf]) fun a => if_neg htimes
  | buildControlLed fc scol ecol cyc =>
    by_cases hfc : fc.toNat < 1 ∨ v.ledFcMax < fc.toNat
    · exact .outOfRange 0 fun a => if_pos hfc
    · exact .of_emitFrame (by simp [payloadControlLed]) fun a => if_neg hfc
  | buildDeleteChar id count =>
    by_cases hid : idCapacity ≤ id.toNat
    · exact .outOfRange 0 fun a => if_pos hid
    · by_cases hcount : count.toNat < 1 ∨ 5 < count.toNat
      · exact .outOfRange 1 fun a => (if_neg hid).trans (if_pos hcount)
      · exact .of_emitFrame (payloadDeleteChar_length_le v id count) fun a => (if_neg hid).trans (if_neg hcount)

/-- Two command frames of one opcode and payload differ in the address bytes alone (R63, R104). -/
theorem frameOf_agree (a a' : DevAddr) (op : Byte) (p : List Byte) :
    (frameOf a op p).length = (frameOf a' op p).length ∧ (frameOf a op p).take 2 = (frameOf a' op p).take 2 ∧
      (frameOf a op p).drop 6 = (frameOf a' op p).drop 6 := by
  simp [frameOf_eq]

/-- One BUILD under two addresses: where both responses hold a frame, it is that of one opcode and payload. -/
theorem exists_frameOf_of_builds {v : Variant} {i : Instr} {a a' : DevAddr} {r r' : Response} {tx tx' : List Byte}
    (hb : Builds v i) (hr : responseOf v a i = .ok r) (hr' : responseOf v a' i = .ok r') (htx : r.tx = some tx)
    (htx' : r'.tx = some tx') : ∃ op p, tx = frameOf a op p ∧ tx' = frameOf a' op p := by
  cases hb with
  | outOfRange k hraise =>
    cases (hraise a).symm.trans hr
    cases htx
  | frame op p w hframe =>
    cases (hframe a).symm.trans hr
    cases (hframe a').symm.trans hr'
    cases htx
    cases htx'
    exact ⟨op, p, rfl, rfl⟩

/-- Settles O13: CHECKSUM answers `checksumOf`, which reads the range alone and changes with each byte of it; and the
frames of one BUILD under two addresses are those of one opcode and payload. -/
theorem checksumCoversTypeToPayloadOnly : Obligations.ChecksumCoversTypeToPayloadOnly := by
  refine ⟨?sameRange, ?sameSum, ?oneByte, ?twoAddresses⟩
  case sameRange =>
    intro len rx rx' s s' h8 hlen hlen' hsame
    exact ⟨_, exec_checksum_long s h8 hlen, checksumOf_congr h8 hsame ▸ exec_checksum_long s' h8 hlen'⟩
  case sameSum =>
    intro len rx rx' s h8 hlen hlen'
    exact ⟨_, _, exec_checksum_long s h8 hlen, exec_checksum_long s h8 hlen', checksumOf_eq_iff⟩
  case oneByte =>
    intro len i rx b s h8 hlen h6 hi hb
    exact ⟨_, _, checksumOf_set_ne hlen h6 hi hb, exec_checksum_long s h8 hlen,
      exec_checksum_long s h8 (by rwa [List.length_set])⟩
  case twoAddresses =>
    intro i s s' t t' r r' tx tx' hbuild hv hexec hexec' hresp hresp' htx htx'
    obtain ⟨p, hp, rfl⟩ := exec_eq_next_iff.1 hexec
    obtain ⟨p', hp', rfl⟩ := exec_eq_next_iff.1 hexec'
    cases hresp
    cases hresp'
    rw [← hv] at hp'
    obtain ⟨op, q, rfl, rfl⟩ := exists_frameOf_of_builds (builds_of_isBuild s.variant hbuild) hp hp' htx htx'
    exact frameOf_agree s.devaddr s'.devaddr op q

end Sys2Proof.Machine

/-! SUPPORT. The builder: which response each BUILD has, and how VALIDATE answers to a built frame. A BUILD is its range
checks and then the frame of one opcode and one payload; a built frame is the response frame of R66 for its opcode and
payload but for the type and checksum bytes, which gates 4 and 6 alone read. -/

namespace Sys2Proof.Machine

/-! ## A BUILD changes the response alone -/

/-- A BUILD leaves the address (R20, R112). -/
theorem addressLeft_of_isBuild {i : Instr} (hb : isBuild i = true) (a : DevAddr) : addressLeft a i = a := by
  cases i with
  | setAddr n => cases hb
  | _ => rfl

/-- A BUILD that has a response puts it into the state and changes nothing else (R28). -/
theorem exec_build {i : Instr} {s : State} {r : Response} (hb : isBuild i = true)
    (hr : responseOf s.variant s.devaddr i = .ok r) : exec i s = .next { s with response := some r } :=
  exec_eq_next_iff.2 ⟨r, hr, by rw [addressLeft_of_isBuild hb]; rfl⟩

/-- A BUILD that comes to `EmitFrame` with the operation's payload answers with its frame (R111). -/
theorem exec_build_frame {i : Instr} {s : State} {op : Byte} {p : List Byte} {w : Bool} (hb : isBuild i = true)
    (hp : p.length ≤ 5) (hr : responseOf s.variant s.devaddr i = emitFrame s.devaddr op p w) :
    exec i s =
      .next { s with response := some (respondFrame (12 + p.length) (frameOf s.devaddr op p) w) } :=
  exec_build hb (by rw [hr, emitFrame_ok _ _ _ _ (by omega)])

/-! ## The sum a built frame carries -/

theorem byteSum_le (bs : List Byte) : byteSum bs ≤ 255 * bs.length := by
  induction bs with
  | nil => exact Nat.le_refl 0
  | cons b bs ih =>
    have := b.isLt
    rw [byteSum_cons, List.length_cons]
    omega

/-- The sum of type, Payload Length, opcode and payload (R63, R100). -/
theorem byteSum_coveredBytes (op : Byte) {p : List Byte} (hp : p.length ≤ 5) :
    byteSum (coveredBytes op p) = 4 + p.length + op.toNat + byteSum p := by
  have hhi : (p.length + 3) / 256 = 0 := by omega
  have hlo : (p.length + 3) % 256 = p.length + 3 := by omega
  simp only [coveredBytes, List.cons_append, List.nil_append, byteSum_cons, hhi, BitVec.toNat_ofNat, Nat.reducePow,
    hlo, BitVec.reduceToNat]
  omega

/-- A built frame byte by byte: its length and its sum fit the low byte and 16 bits (R63, R64). -/
theorem frameOf_short (a : DevAddr) (op : Byte) {p : List Byte} (hp : p.length ≤ 5) :
    frameOf a op p = [0xEF, 0x01, a.a0, a.a1, a.a2, a.a3, 0x01, 0x00, BitVec.ofNat 8 (p.length + 3), op] ++ p ++
      beBytes 2 (4 + p.length + op.toNat + byteSum p) := by
  have hhi : (p.length + 3) / 256 = 0 := by omega
  have hsum : 4 + p.length + op.toNat + byteSum p < 65536 := by
    have := op.isLt
    have := byteSum_le p
    omega
  rw [frameOf_eq, byteSum_coveredBytes op hp, Nat.mod_eq_of_lt hsum, coveredBytes, hhi]
  rfl

/-! ## The operations -/

/-- A command without parameters builds 12 bytes whose sum is 4 and the opcode (R140–R142). -/
theorem exec_build_without_parameters {i : Instr} {s : State} {op : Byte} (hb : isBuild i = true)
    (hr : responseOf s.variant s.devaddr i = emitFrame s.devaddr op [] warnNone) :
    exec i s = .next { s with response := some (respondFrame 12 ([0xEF, 0x01, s.devaddr.a0, s.devaddr.a1,
      s.devaddr.a2, s.devaddr.a3, 0x01, 0x00, 0x03, op] ++ beBytes 2 (4 + op.toNat)) warnNone) } := by
  rw [exec_build_frame (p := []) hb (by simp) hr, frameOf_short _ _ (by simp)]
  rfl

/-- Settles O14: the three commands without parameters, by their opcodes. -/
theorem commandsWithoutParametersBuildTheirFrames : Obligations.CommandsWithoutParametersBuildTheirFrames := by
  intro s
  exact ⟨⟨rfl, rfl, rfl⟩, exec_build_without_parameters rfl rfl, exec_build_without_parameters rfl rfl,
    exec_build_without_parameters rfl rfl⟩

/-- Settles O15: the payload is `PAGE` alone. -/
theorem readIndexTablePlacesItsPage : Obligations.ReadIndexTablePlacesItsPage := by
  intro page s
  refine ⟨rfl, ?_⟩
  have hsum : 4 + 1 + (0x1F : Byte).toNat + byteSum [page] = 0x24 + page.toNat := by simp [byteSum]
  rw [exec_build_frame (p := [page]) rfl (by simp) rfl, frameOf_short _ _ (by simp), List.length_singleton, hsum,
    beBytes_two]
  rfl

/-- Settles O16: the one range check of R120, then the frame. -/
theorem autoEnrollChecksTimes : Obligations.AutoEnrollChecksTimes := by
  intro id times flags s
  refine ⟨rfl, ?_⟩
  split
  · next htimes => exact exec_build rfl (if_pos htimes)
  · next htimes => exact exec_build_frame (p := payloadAutoEnroll id times flags) rfl (Nat.le_refl 5) (if_neg htimes)

/-- Settles O17: AutoIdentify has no range check (R115). -/
theorem autoIdentifyAcceptsEveryOperand : Obligations.AutoIdentifyAcceptsEveryOperand := by
  intro id score flags s
  exact ⟨rfl, exec_build_frame (p := payloadAutoIdentify id score flags) rfl (Nat.le_refl 5) rfl⟩

theorem ledFcMax_eq (v : Variant) : v.ledFcMax = 6 ∨ v.ledFcMax = 7 := by
  unfold Variant.ledFcMax
  split
  · exact .inl rfl
  · exact .inr rfl

/-- The low 3 bits of a colour are its value modulo 8 (R70, R132). -/
theorem maskColour_eq (c : Byte) : maskColour c = BitVec.ofNat 8 (c.toNat % 8) := by
  have hmask : c.toNat &&& 7 = c.toNat % 8 := Nat.and_two_pow_sub_one_eq_mod c.toNat 3
  apply BitVec.eq_of_toNat_eq
  rw [BitVec.toNat_ofNat, Nat.mod_eq_of_lt (by omega), ← hmask]
  rfl

theorem warnColours_eq (scol ecol : Byte) :
    warnColours scol ecol = decide (7 < scol.toNat ∨ 7 < ecol.toNat) := (Bool.decide_or _ _).symm

/-- Settles O18: the range check of R131, then the frame with the masked colours. -/
theorem controlLedMasksColoursAndWarns : Obligations.ControlLedMasksColoursAndWarns := by
  intro fc scol ecol cyc s
  refine ⟨ledFcMax_eq s.variant, rfl, ?_⟩
  split
  · next hfc => exact exec_build rfl (if_pos hfc)
  · next hfc =>
    rw [← maskColour_eq, ← maskColour_eq, ← warnColours_eq]
    exact exec_build_frame (p := payloadControlLed fc scol ecol cyc) rfl (Nat.le_succ 4) (if_neg hfc)

/-- The payload of DeleteChar has `COUNT` in `P_DEL_COUNT_WIDTH` bytes (R65, R136). -/
theorem payloadDeleteChar_eq (v : Variant) (id count : Half) :
    payloadDeleteChar v id count = if v.delCountBytes = 2 then [hi8 id, lo8 id, hi8 count, lo8 count]
      else [hi8 id, lo8 id, BitVec.ofNat 8 count.toNat] := by
  have hlo : lo8 count = BitVec.ofNat 8 count.toNat := by simp [lo8, BitVec.extractLsb']
  unfold payloadDeleteChar placeCount Variant.delCountBytes
  cases v.delCountWidth with
  | one => rw [← hlo]; rfl
  | two => rfl

theorem payloadDeleteChar_length (v : Variant) (id count : Half) :
    (payloadDeleteChar v id count).length = 2 + v.delCountBytes := by
  unfold payloadDeleteChar placeCount Variant.delCountBytes
  cases v.delCountWidth <;> rfl

/-- Settles O19: the range checks of R136 in their order, then the frame. -/
theorem deleteCharChecksIdThenCount : Obligations.DeleteCharChecksIdThenCount := by
  intro id count s
  refine ⟨rfl, ?_⟩
  split
  · next hid => exact exec_build rfl (if_pos hid)
  · next hid =>
    split
    · next hcount => exact exec_build rfl ((if_neg hid).trans (if_pos hcount))
    · next hcount =>
      have hframe := exec_build_frame (i := .buildDeleteChar id count) (s := s) rfl
        (payloadDeleteChar_length_le s.variant id count) ((if_neg hid).trans (if_neg hcount))
      rw [payloadDeleteChar_length, ← Nat.add_assoc, payloadDeleteChar_eq] at hframe
      exact hframe

/-! ## A frame with another type or another checksum -/

namespace ReceivedFields

/-- Gates 4 and 6 alone read the type and the checksum field (R151–R156). -/
theorem gatePasses_retyped {a : DevAddr} {len k : Nat} (f : ReceivedFields) (type ckHi ckLo : Byte) (h4 : k ≠ 4)
    (h6 : k ≠ 6) : gatePasses a len { f with type := type, ckHi := ckHi, ckLo := ckLo }.bytes k ↔
      gatePasses a len f.bytes k := by
  match k, h4, h6 with
  | 0, _, _ | 1, _, _ | 2, _, _ | 3, _, _ | 5, _, _ | _ + 7, _, _ => exact Iff.rfl

/-- The packet type stands at index 6 (R63, R66). -/
theorem set_type_bytes (f : ReceivedFields) (type : Byte) : f.bytes.set 6 type = { f with type := type }.bytes := rfl

/-- The checksum gate compares the last two bytes with the sum of the bytes covered (R156). -/
theorem checksumGate_iff {a : DevAddr} (f : ReceivedFields) : gatePasses a f.bytes.length f.bytes 6 ↔
    f.ckHi.toNat * 256 + f.ckLo.toNat = byteSum f.covered % 65536 := by
  simp only [gatePasses, be16At_bytes_checksum, checksumOf_bytes, BitVec.toNat_ofNat, Nat.reducePow]

/-- A frame up to its checksum. -/
theorem take_bytes (f : ReceivedFields) :
    f.bytes.take (f.bytes.length - 2) = [f.h0, f.h1] ++ f.addr.bytes ++ f.covered := by
  rw [bytes, List.length_append, List.length_cons, List.length_singleton, Nat.add_sub_cancel, List.take_left]

/-- The frame as a response has the type 0x07 and the sum of the bytes covered then (R146). -/
theorem asResponse_bytes (f : ReceivedFields) {g : ReceivedFields} (hg : g = { f with type := 0x07 }) :
    asResponse f.bytes = { g with
      ckHi := BitVec.ofNat 8 (byteSum g.covered % 65536 / 256)
      ckLo := BitVec.ofNat 8 (byteSum g.covered % 65536) }.bytes := by
  have hlength : f.bytes.length = g.bytes.length := by rw [hg, bytes_length, bytes_length]
  simp only [asResponse]
  rw [set_type_bytes, ← hg, hlength, take_bytes, checksumOf_bytes, BitVec.toNat_ofNat, beBytes_two]
  rfl

end ReceivedFields

/-! ## A built frame as fields -/

/-- The fields of a command frame (R63): those of the response frame for its opcode and payload, but for the type and
the checksum. -/
def commandFields (a : DevAddr) (op : Byte) (p : List Byte) : ReceivedFields :=
  { responseFields a (op :: p) with
    type := 0x01
    ckHi := BitVec.ofNat 8 (byteSum (coveredBytes op p) % 65536 / 256)
    ckLo := BitVec.ofNat 8 (byteSum (coveredBytes op p) % 65536) }

theorem commandFields_bytes (a : DevAddr) (op : Byte) (p : List Byte) :
    (commandFields a op p).bytes = frameOf a op p := by
  rw [frameOf_eq, beBytes_two]
  rfl

/-- The type of a response in place of that of a command adds 6 to the sum (R9). -/
theorem byteSum_responseCovered (op : Byte) (p : List Byte) :
    byteSum (responseCovered (op :: p)) = byteSum (coveredBytes op p) + 6 := by
  simp only [responseCovered, coveredBytes, List.cons_append, List.nil_append, byteSum_cons, List.length_cons,
    Nat.add_assoc, Nat.reduceAdd, BitVec.reduceToNat]
  omega

/-- A command frame as a response is the response frame for its opcode and payload (R66, R146). -/
theorem asResponse_frameOf (a : DevAddr) (op : Byte) (p : List Byte) :
    asResponse (frameOf a op p) = (responseFields a (op :: p)).bytes := by
  rw [← commandFields_bytes, ReceivedFields.asResponse_bytes _ rfl]
  rfl

/-- The response frame is as long as the command frame it stands for. -/
theorem asResponse_frameOf_length (a : DevAddr) (op : Byte) (p : List Byte) :
    (asResponse (frameOf a op p)).length = (frameOf a op p).length := by
  rw [asResponse_frameOf, ← commandFields_bytes, ReceivedFields.bytes_length, ReceivedFields.bytes_length]
  rfl

section Gates

variable {a : DevAddr} {op : Byte} {p : List Byte} (hp : p.length ≤ 5)
include hp

/-- The gates of a built frame as a response (R146, C5). -/
theorem allGatesPass_asResponse :
    allGatesPass a (frameOf a op p).length (asResponse (frameOf a op p)) := by
  rw [← asResponse_frameOf_length, asResponse_frameOf]
  exact responseFields_gates a (by simp) (by simp; omega)

/-- A frame built passes every gate but those of the type and the checksum, whatever type and checksum it is given
(R146). -/
theorem gatePasses_commandFields (type ckHi ckLo : Byte) {k : Nat} (h1 : 1 ≤ k) (h5 : k ≤ 5) (h4 : k ≠ 4) :
    gatePasses a (frameOf a op p).length
      { commandFields a op p with type := type, ckHi := ckHi, ckLo := ckLo }.bytes k := by
  have hresponse := allGatesPass_asResponse (a := a) (op := op) hp k h1 (by omega)
  rw [asResponse_frameOf] at hresponse
  exact (ReceivedFields.gatePasses_retyped (responseFields a (op :: p)) _ _ _ h4 (by omega)).2 hresponse

theorem gatePasses_frameOf {k : Nat} (h1 : 1 ≤ k) (h5 : k ≤ 5) (h4 : k ≠ 4) :
    gatePasses a (frameOf a op p).length (frameOf a op p) k := by
  have hfields := gatePasses_commandFields (a := a) (op := op) hp 0x01 (commandFields a op p).ckHi
    (commandFields a op p).ckLo h1 h5 h4
  rwa [← commandFields_bytes] at hfields ⊢

/-- A built frame is rejected for its type (R146). -/
theorem firstFailure_frameOf : firstFailure a (frameOf a op p).length (frameOf a op p) 4 := by
  refine ⟨by omega, by omega, fun htype => ?_, fun j h1 hj => gatePasses_frameOf hp h1 (by omega) (by omega)⟩
  exact absurd (Option.some.inj htype) (by decide : (0x01 : Byte) ≠ 0x07)

/-- With the type of a response alone it is rejected for its checksum: the sum has grown by 6 (C5). -/
theorem firstFailure_frameOf_set_type :
    firstFailure a (frameOf a op p).length ((frameOf a op p).set 6 0x07) 6 := by
  have htyped : (frameOf a op p).set 6 0x07 = { commandFields a op p with type := 0x07 }.bytes := by
    rw [← commandFields_bytes, ReceivedFields.set_type_bytes]
  rw [htyped]
  refine ⟨by omega, by omega, fun hgate => ?_, fun j h1 hj => ?_⟩
  · rw [← List.length_set (as := frameOf a op p) (i := 6) (a := 0x07), htyped,
      ReceivedFields.checksumGate_iff] at hgate
    have hfield := (be16_eq_iff (Nat.mod_lt (byteSum (coveredBytes op p)) (by decide : 0 < 65536))).2 ⟨rfl, rfl⟩
    have hsums : byteSum (coveredBytes op p) % 65536 = byteSum (responseCovered (op :: p)) % 65536 :=
      hfield.symm.trans hgate
    have hgrown := byteSum_responseCovered op p
    omega
  · by_cases h4 : j = 4
    · subst h4
      rfl
    · exact gatePasses_commandFields hp _ _ _ h1 (by omega) h4

end Gates

/-! ## The round trip -/

/-- VALIDATE reports the first failing gate (R157). -/
theorem exec_validate_of_firstFailure {len k : Nat} {rx : List Byte} {s : State} (hlen : len ≤ rx.length)
    (hk : firstFailure s.devaddr len rx k) :
    exec (.validate len rx) s = .next { s with response := some { status := gateError k } } := by
  have hstatus := gateStatus_error hlen hk
  obtain ⟨h1, h6, -⟩ := hk
  refine exec_eq_next_iff.2 ⟨raiseStatus (gateError k), ?_, rfl⟩
  simp only [responseOf, validateResponse, hstatus, bind, Except.bind, if_neg (gateError_ne_ok h1 h6)]
  rfl

/-- A BUILD whose `COUNT` does not fit its field is out of range, so one that succeeds is well-formed (R24, R136). -/
theorem wellFormed_of_build_ok {v : Variant} {a : DevAddr} {i : Instr} {r : Response} (hb : isBuild i = true)
    (hr : responseOf v a i = .ok r) (hok : r.status = .ok) : wellFormed v i = true := by
  cases i with
  | checksum len rx => cases hb
  | validate len rx => cases hb
  | parseIndex len rx => cases hb
  | buildDeleteChar id count =>
    simp only [responseOf] at hr
    split at hr
    · cases hr
      cases hok
    · split at hr
      · cases hr
        cases hok
      · next hcount =>
        simp only [wellFormed, wellFormedCount]
        split
        · exact decide_eq_true (by omega)
        · rfl
  | _ => rfl

/-- The frame in a legal response is legal (R146). -/
theorem legalFrame_of_legal {r : Response} {tx : List Byte} (hr : r.legal) (htx : r.tx = some tx) : legalFrame tx := by
  obtain rfl | ⟨_, _, _, rfl⟩ | ⟨_, _, rfl⟩ | ⟨_, _, hframe, rfl⟩ | ⟨_, rfl⟩ | ⟨_, _, rfl⟩ := hr
  case inr.inr.inr.inl =>
    cases htx
    exact hframe
  all_goals cases htx

/-- A BUILD that succeeds answers with the frame of a payload of at most 5 bytes, and this frame is legal. -/
theorem exists_frame_of_build_ok {v : Variant} {a : DevAddr} {i : Instr} {r : Response} (hb : isBuild i = true)
    (hr : responseOf v a i = .ok r) (hok : r.status = .ok) :
    ∃ op p w, p.length ≤ 5 ∧ legalFrame (frameOf a op p) ∧
      r = respondFrame (frameOf a op p).length (frameOf a op p) w := by
  have hlegal := responseOf_legal (wellFormed_of_build_ok hb hr hok) hr
  cases builds_of_isBuild v hb with
  | outOfRange k hraise =>
    cases (hraise a).symm.trans hr
    cases hok
  | frame op p w hframe =>
    cases (hframe a).symm.trans hr
    have htx := legalFrame_of_legal hlegal rfl
    have hlength := frameOf_length a op p
    have ⟨_, h17, _⟩ := htx
    exact ⟨op, p, w, by omega, htx, by rw [hlength]⟩

/-- Settles O20: a built frame is legal; its first failing gate is 4, with the type of a response 6, and as a response
none. -/
theorem builtFramesRoundTripThroughValidate : Obligations.BuiltFramesRoundTripThroughValidate := by
  intro i s t r hb hexec hresp hok
  obtain ⟨r', hr, rfl⟩ := exec_eq_next_iff.1 hexec
  cases hresp
  obtain ⟨op, p, w, hp, hlegal, rfl⟩ := exists_frame_of_build_ok hb hr hok
  obtain ⟨h12, h17, -, -, htype, hdeclared, -, hck⟩ := hlegal
  have haddr : ((frameOf s.devaddr op p).drop 2).take 4 = s.devaddr.bytes := by rw [frameOf_eq]; rfl
  exact ⟨_, rfl, rfl, h12, h17, hdeclared, hck, haddr, htype,
    gatePasses_frameOf hp (by decide) (by decide) (by decide),
    gatePasses_frameOf hp (by decide) (by decide) (by decide),
    gatePasses_frameOf hp (by decide) (by decide) (by decide),
    gatePasses_frameOf hp (by decide) (by decide) (by decide),
    exec_validate_of_firstFailure (Nat.le_refl _) (firstFailure_frameOf hp),
    exec_validate_of_firstFailure (by rw [List.length_set]) (firstFailure_frameOf_set_type hp),
    (execValidate_ok_iff (by rw [asResponse_frameOf_length])).2 (allGatesPass_asResponse hp)⟩

end Sys2Proof.Machine

/-! SUPPORT. The validator: VALIDATE answers OK where every gate passes, and the status of the first gate that fails
(R150, R157). -/

namespace Sys2Proof.Machine

/-- Settles O21: `execValidate_ok_iff` where every gate passes, `exec_validate_of_firstFailure` where one fails first,
and by `gates_cases` there is no third case. -/
theorem validateReportsTheFirstFailingGate : Obligations.ValidateReportsTheFirstFailingGate := by
  intro len rx s hlen
  have hok : allGatesPass s.devaddr len rx →
      exec (.validate len rx) s = .next { s with response := some { status := .ok } } :=
    (execValidate_ok_iff hlen).2
  have herror : ∀ k, firstFailure s.devaddr len rx k →
      exec (.validate len rx) s = .next { s with response := some { status := gateError k } } :=
    fun _ hk => exec_validate_of_firstFailure hlen hk
  exact ⟨rfl, hok, herror, gates_cases s.devaddr len rx⟩

end Sys2Proof.Machine

/-! SUPPORT. The index-table parser: PARSE_INDEX answers the status of the first failing gate, or FrameTooShort, or the
first 100 occupied slots (R170–R172), which the bitmap bytes `RX[10..22]` alone decide (R177). -/

namespace Sys2Proof.Machine

/-! ## The response of PARSE_INDEX, one lemma per outcome -/

/-- Where VALIDATE fails, its status and no slot list (R170). -/
theorem parseIndexResponse_of_firstFailure {a : DevAddr} {len k : Nat} {rx : List Byte} (hlen : len ≤ rx.length)
    (hk : firstFailure a len rx k) : parseIndexResponse a len rx = .ok (raiseStatus (gateError k)) := by
  have hstatus := gateStatus_error hlen hk
  obtain ⟨h1, h6, -⟩ := hk
  simp only [parseIndexResponse, hstatus, bind, Except.bind, if_pos (gateError_ne_ok h1 h6)]
  rfl

/-- A valid response that ends before its bitmap does (R172). -/
theorem parseIndexResponse_short {a : DevAddr} {len : Nat} {rx : List Byte} (hlen : len ≤ rx.length)
    (hall : allGatesPass a len rx) (hshort : len < 25) :
    parseIndexResponse a len rx = .ok (raiseStatus .frameTooShort) := by
  simp only [parseIndexResponse, gateStatus_ok hlen hall, bind, Except.bind, minIndexLength, ne_eq,
    not_true_eq_false, if_false, if_pos hshort]
  rfl

/-- A valid response that holds the whole bitmap (R171). -/
theorem parseIndexResponse_long {a : DevAddr} {len : Nat} {rx : List Byte} (hlen : len ≤ rx.length)
    (hall : allGatesPass a len rx) (h25 : 25 ≤ len) :
    parseIndexResponse a len rx = .ok (respondSlots (occupiedSlots rx)) := by
  simp only [parseIndexResponse, gateStatus_ok hlen hall, bind, Except.bind, minIndexLength, bitmapBytes, ne_eq,
    not_true_eq_false, if_false, if_neg (Nat.not_lt.2 h25), scanBytes_ok hlen h25]
  rfl

/-- PARSE_INDEX puts its response in the state and changes nothing else (R170). -/
theorem exec_parseIndex_of_response {len : Nat} {rx : List Byte} {s : State} {r : Response}
    (hr : parseIndexResponse s.devaddr len rx = .ok r) :
    exec (.parseIndex len rx) s = .next { s with response := some r } :=
  exec_eq_next_iff.2 ⟨r, hr, rfl⟩

/-- Of the three outcomes only the last carries a slot list. -/
theorem parseIndexResponse_slots {a : DevAddr} {len : Nat} {rx : List Byte} {r : Response} {slots : List Nat}
    (hlen : len ≤ rx.length) (hr : parseIndexResponse a len rx = .ok r) (hslots : r.slots = some slots) :
    slots = occupiedSlots rx ∧ r = respondSlots (occupiedSlots rx) := by
  obtain hall | ⟨k, hk⟩ := gates_cases a len rx
  · obtain hshort | h25 := Nat.lt_or_ge len 25
    · cases (parseIndexResponse_short hlen hall hshort).symm.trans hr
      cases hslots
    · cases (parseIndexResponse_long hlen hall h25).symm.trans hr
      exact ⟨(Option.some.inj hslots).symm, rfl⟩
  · cases (parseIndexResponse_of_firstFailure hlen hk).symm.trans hr
    cases hslots

/-- Settles O24: one clause per outcome of PARSE_INDEX. -/
theorem parseIndexListsOccupiedSlots : Obligations.ParseIndexListsOccupiedSlots := by
  intro len rx s hlen
  refine ⟨rfl, fun k hk => exec_parseIndex_of_response (parseIndexResponse_of_firstFailure hlen hk),
    fun hall => exec_parseIndex_of_response ?_⟩
  split
  · next hshort => exact parseIndexResponse_short hlen hall hshort
  · next h25 => exact parseIndexResponse_long hlen hall (Nat.le_of_not_lt h25)

/-! ## The slots listed and the slots left out -/

/-- The list whose first 100 entries `occupiedSlots` takes holds every slot the bitmap marks (R67, R173). -/
theorem mem_filter_slotOccupied_iff {rx : List Byte} {n : Nat} :
    n ∈ (List.range 104).filter (slotOccupied rx) ↔ n ≤ 103 ∧ slotOccupied rx n = true := by
  rw [List.mem_filter, List.mem_range, Nat.lt_succ_iff]

theorem slotOccupied_of_mem_occupiedSlots {rx : List Byte} {n : Nat} (hn : n ∈ occupiedSlots rx) :
    n ≤ 103 ∧ slotOccupied rx n = true :=
  mem_filter_slotOccupied_iff.1 (List.mem_of_mem_take hn)

/-- What a prefix of an increasing list leaves out is above all it holds, and the prefix is then full. -/
theorem take_full_below_of_not_mem {l : List Nat} {k n : Nat} (hl : l.Pairwise (· < ·)) (hn : n ∈ l)
    (hout : n ∉ l.take k) : (l.take k).length = k ∧ ∀ m ∈ l.take k, m < n := by
  have hdrop : n ∈ l.drop k := by
    rw [← List.take_append_drop k l, List.mem_append] at hn
    exact hn.resolve_left hout
  have hk : k < l.length := by simpa using List.length_pos_of_mem hdrop
  rw [← List.take_append_drop k l, List.pairwise_append] at hl
  obtain ⟨-, -, hbelow⟩ := hl
  exact ⟨List.length_take_of_le hk.le, fun m hm => hbelow m hm n hdrop⟩

/-- The cap alone leaves an occupied slot out (R174). -/
theorem occupiedSlots_full_of_not_mem {rx : List Byte} {n : Nat} (hn : n ≤ 103) (hocc : slotOccupied rx n = true)
    (hout : n ∉ occupiedSlots rx) : (occupiedSlots rx).length = 100 ∧ ∀ m ∈ occupiedSlots rx, m < n :=
  take_full_below_of_not_mem (List.pairwise_lt_range.filter _) (mem_filter_slotOccupied_iff.2 ⟨hn, hocc⟩) hout

/-- Settles O25: the slot list is `occupiedSlots`, a prefix of the increasing list of all occupied slots. -/
theorem slotListsAreAscendingAndCapped : Obligations.SlotListsAreAscendingAndCapped := by
  intro len rx s t r slots hlen hexec hresp hslots
  obtain ⟨r', hr, rfl⟩ := exec_eq_next_iff.1 hexec
  cases hresp
  obtain ⟨rfl, rfl⟩ := parseIndexResponse_slots hlen hr hslots
  obtain ⟨hascending, hcap, -⟩ := occupiedSlots_legal rx
  exact ⟨rfl, rfl, hascending, hcap, fun _ => slotOccupied_of_mem_occupiedSlots,
    fun _ => occupiedSlots_full_of_not_mem⟩

/-! ## The bitmap alone decides the list -/

/-- Buffers with one bitmap have the same occupied slots (R67, R177). -/
theorem occupiedSlots_congr {rx rx' : List Byte} (hbitmap : ∀ i, 10 ≤ i → i ≤ 22 → rx[i]? = rx'[i]?) :
    occupiedSlots rx = occupiedSlots rx' := by
  have hslot : ∀ n ∈ List.range 104, slotOccupied rx n = slotOccupied rx' n := fun n hn => by
    have hlt : n < 104 := List.mem_range.1 hn
    have hbyte : rx[10 + n / 8]? = rx'[10 + n / 8]? := hbitmap _ (by omega) (by omega)
    simp only [slotOccupied, byteAt, List.getD_eq_getElem?_getD, hbyte]
  rw [occupiedSlots, occupiedSlots, List.filter_congr hslot]

/-- A bitmap of zero bytes lists no slot (R175). -/
theorem occupiedSlots_of_zero_bitmap {rx : List Byte} (hzero : ∀ i, 10 ≤ i → i ≤ 22 → rx[i]? = some 0x00) :
    occupiedSlots rx = [] := by
  refine List.eq_nil_iff_forall_not_mem.2 fun n hn => ?_
  obtain ⟨hle, hocc⟩ := slotOccupied_of_mem_occupiedSlots hn
  have hbyte : rx[10 + n / 8]? = some 0x00 := hzero _ (by omega) (by omega)
  simp [slotOccupied, byteAt, List.getD_eq_getElem?_getD, hbyte] at hocc

/-- Settles O26: the list of `parseIndexResponse_long`, which is empty here. -/
theorem emptyBitmapIsAnEmptyList : Obligations.EmptyBitmapIsAnEmptyList := by
  intro len rx s hlen h25 hall hzero
  have hr := parseIndexResponse_long hlen hall h25
  rw [occupiedSlots_of_zero_bitmap hzero] at hr
  exact exec_parseIndex_of_response hr

/-- Settles O27: both answer with their occupied slots, which are the same. -/
theorem parseIndexInterpretsOnlyTheBitmap : Obligations.ParseIndexInterpretsOnlyTheBitmap := by
  intro len len' rx rx' s s' hlen hlen' h25 h25' hall hall' hbitmap
  have hr := parseIndexResponse_long hlen hall h25
  have hr' := parseIndexResponse_long hlen' hall' h25'
  rw [← occupiedSlots_congr hbitmap] at hr'
  exact ⟨respondSlots (occupiedSlots rx), rfl, nofun, exec_parseIndex_of_response hr,
    exec_parseIndex_of_response hr'⟩

end Sys2Proof.Machine

/-! SUPPORT. The device-address configuration: what SET_ADDR makes of the state, and where the operations after it use
the address. A built frame carries it at indices 2..5, and the third gate of VALIDATE compares these bytes with it
(R190, R191). -/

namespace Sys2Proof.Machine

/-! ## SET_ADDR -/

/-- SET_ADDR accepts every address, and changes `DEVADDR` and the response alone (R190). -/
theorem exec_setAddr (n : DevAddr) (s : State) :
    exec (.setAddr n) s = .next { s with devaddr := n, response := some { status := .ok } } :=
  exec_eq_next_iff.2 ⟨respondOk, rfl, rfl⟩

/-- Settles O28: the effect of SET_ADDR is `exec_setAddr`, and `addrValue_eq` reads the 32-bit view. -/
theorem setAddrLoadsAllFourBytes : Obligations.SetAddrLoadsAllFourBytes := by
  intro n s
  exact ⟨rfl, exec_setAddr n s, addrValue_eq n⟩

/-! ## The address in a built frame -/

theorem frameOf_address (a : DevAddr) (op : Byte) (p : List Byte) : ((frameOf a op p).drop 2).take 4 = a.bytes := by
  rw [frameOf_eq]
  rfl

/-- Whatever frame a BUILD sends, `DEVADDR` stands in it at indices 2..5 (R63, R111). -/
theorem address_of_build {i : Instr} {s t : State} {r : Response} {tx : List Byte} (hb : isBuild i = true)
    (hexec : exec i s = .next t) (hresp : t.response = some r) (htx : r.tx = some tx) :
    (tx.drop 2).take 4 = s.devaddr.bytes := by
  obtain ⟨r', hr, rfl⟩ := exec_eq_next_iff.1 hexec
  cases hresp
  obtain ⟨op, p, rfl, -⟩ := exists_frameOf_of_builds (builds_of_isBuild s.variant hb) hr hr htx htx
  exact frameOf_address s.devaddr op p

/-! ## The address gate of VALIDATE -/

/-- A buffer that begins with `HDR` passes gate 2 (R152). -/
theorem headerGate_of_take {rx : List Byte} (h : rx.take 2 = [0xEF, 0x01]) (a : DevAddr) (len : Nat) :
    gatePasses a len rx 2 := by
  obtain ⟨rest, rfl⟩ : ∃ rest, rx = [0xEF, 0x01] ++ rest := ⟨rx.drop 2, by rw [← h, List.take_append_drop]⟩
  exact ⟨rfl, rfl⟩

/-- Gate 3 compares the bytes at indices 2..5 with the address (R153). -/
theorem addressGate_iff_bytes {rx : List Byte} (h : 6 ≤ rx.length) (a : DevAddr) (len : Nat) :
    gatePasses a len rx 3 ↔ (rx.drop 2).take 4 = a.bytes := by
  match rx, h with
  | b0 :: b1 :: b2 :: b3 :: b4 :: b5 :: rest, _ => simp [gatePasses, DevAddr.bytes]

/-- No gate but the third reports AddressMismatch (R153, R200). -/
theorem eq_three_of_gateError {k : Nat} (h : gateError k = .addressMismatch) : k = 3 := by
  match k, h with
  | 3, _ => rfl
  | _ + 7, h => cases h

/-- VALIDATE reports AddressMismatch exactly where gate 3 is the first that fails (R153, R157). -/
theorem exec_validate_addressMismatch_iff {len : Nat} {rx : List Byte} {s : State} (hlen : len ≤ rx.length) :
    exec (.validate len rx) s = .next { s with response := some { status := .addressMismatch } } ↔
      firstFailure s.devaddr len rx 3 := by
  constructor
  · intro h
    obtain hall | ⟨k, hk⟩ := gates_cases s.devaddr len rx
    · cases ((execValidate_ok_iff hlen).2 hall).symm.trans h
    · have hstatus : gateError k = .addressMismatch := by
        simpa using (exec_validate_of_firstFailure hlen hk).symm.trans h
      obtain rfl := eq_three_of_gateError hstatus
      exact hk
  · exact exec_validate_of_firstFailure hlen

/-- Behind a good length and a good header, the address alone decides gate 3 (R151–R153). -/
theorem firstFailure_three_iff {a : DevAddr} {len : Nat} {rx : List Byte} (hlen : len ≤ rx.length) (h12 : 12 ≤ len)
    (hheader : rx.take 2 = [0xEF, 0x01]) : firstFailure a len rx 3 ↔ (rx.drop 2).take 4 ≠ a.bytes := by
  rw [ne_eq, ← addressGate_iff_bytes (by omega) a len]
  constructor
  · rintro ⟨-, -, hfails, -⟩
    exact hfails
  · refine fun hfails => ⟨by decide, by decide, hfails, fun j h1 h3 => ?_⟩
    obtain rfl | rfl : j = 1 ∨ j = 2 := by omega
    · exact h12
    · exact headerGate_of_take hheader a len

/-! ## After a SET_ADDR -/

/-- CHECKSUM answers alike in all states: it reads its request only (R101). -/
theorem exec_checksum_same {len : Nat} {rx : List Byte} (hlen : len ≤ rx.length) :
    ∃ r, ∀ s : State, exec (.checksum len rx) s = .next { s with response := some r } := by
  obtain ⟨r, hr⟩ := checksumResponse_answers hlen
  exact ⟨r, fun _ => exec_eq_next_iff.2 ⟨r, hr, rfl⟩⟩

/-- Settles O30: SET_ADDR leaves the new address (`exec_setAddr`); a BUILD places the address it finds, gate 3 compares
with the address it finds, and CHECKSUM finds none. -/
theorem laterOperationsUseTheNewAddress : Obligations.LaterOperationsUseTheNewAddress := by
  intro n s t hset
  cases (exec_setAddr n s).symm.trans hset
  refine ⟨?built, ?gate, ?checksum⟩
  case built =>
    intro i u r tx hb hexec hresp htx
    exact address_of_build hb hexec hresp htx
  case gate =>
    intro len rx hlen h12 hheader
    exact (exec_validate_addressMismatch_iff hlen).trans (firstFailure_three_iff hlen h12 hheader)
  case checksum =>
    intro len rx hlen
    obtain ⟨r, hr⟩ := exec_checksum_same hlen
    exact ⟨r, hr s, hr _⟩

end Sys2Proof.Machine

/-! SUPPORT. Statuses and warnings: which statuses each operation raises, what a response that raises one holds, and
where a warning comes from (R200–R202). One lemma says which reports each operation makes, for every operand, also
where `LEN` is beyond `RX`; with it, the idle step and the two statements on runs that are read off earlier lemmas. -/

namespace Sys2Proof.Machine

/-! ## Steps and runs -/

/-- Settles O3: the branch of `step` with nothing pending. -/
theorem idleStepChangesNothing : Obligations.IdleStepChangesNothing := by
  intro s hidle
  rw [step, hidle]

/-- Settles O33: the marks among what a run leaves. -/
theorem runsKeepEveryRefusalMark : Obligations.RunsKeepEveryRefusalMark := by
  intro k s t hrun
  exact (leaves_of_run hrun).refusals

/-- Settles O34: `run_answers_next`, by induction on the steps. -/
theorem everyRunGoesOn : Obligations.EveryRunGoesOn := run_answers_next

/-! ## Status numbers -/

theorem ofCode_code (st : Status) : Status.ofCode st.code = .ok st := by
  cases st <;> rfl

/-- Nine numbers stand for a status; the other seven are reserved (R200). -/
theorem ofCode_reserved {c : BitVec 4} (hc : 9 ≤ c.toNat) : Status.ofCode c = .error (.reservedStatus c) := by
  unfold Status.ofCode
  split
  case h_10 => rfl
  all_goals omega

/-- Settles O39: the numbers of the table, their reading, and the reserved ones. -/
theorem statusNumbersAreThoseOfTheTable : Obligations.StatusNumbersAreThoseOfTheTable :=
  ⟨rfl, ofCode_code, fun _ => ofCode_reserved⟩

/-! ## What each operation reports -/

/-- The statuses of the six gates (R151–R156). -/
def gateStatuses : List Status :=
  [.frameTooShort, .headerMismatch, .addressMismatch, .packetTypeMismatch, .lengthMismatch, .checksumMismatch]

/-- The statuses an operation raises for its receive buffer, by the table of R200. -/
def raisedBy : Operation → List Status
  | .checksum => [.checksumInputTooShort]
  | .validate | .parseIndex => gateStatuses
  | _ => []

/-- The BUILD operations with a range check (R120, R131, R136). -/
def rangeChecked : List Operation := [.buildAutoEnroll, .buildControlLed, .buildDeleteChar]

/-- `i` is a BUILD_CONTROLLED with a colour that the mask changes (R132). -/
def masksColour (i : Instr) : Prop :=
  ∃ fc scol ecol cyc, i = .buildControlLed fc scol ecol cyc ∧ (7 < scol.toNat ∨ 7 < ecol.toNat)

/-- What `i` reports (R113, R200–R202): success, with a warning for a masked colour alone; a status of its receive
buffer; or an operand out of range. -/
inductive Reports (i : Instr) : Response → Prop
  | succeeds {r : Response} (hok : r.status = .ok) (hwarn : r.warn = some true → masksColour i) : Reports i r
  | raises {st : Status} (hst : st ∈ raisedBy i.operation) : Reports i (raiseStatus st)
  | outOfRange {k : BitVec 3} (hi : i.operation ∈ rangeChecked) : Reports i (raiseOutOfRange k)

/-- A computation that answers has gone through its first step. -/
theorem exists_of_bind_ok {α β : Type} {x : Except Fault α} {f : α → Except Fault β} {b : β}
    (h : (x >>= f) = .ok b) : ∃ a, x = .ok a ∧ f a = .ok b := by
  cases x with
  | error e => cases h
  | ok a => exact ⟨a, rfl, h⟩

/-- A gate reads, and then either reports its status or leaves the frame to the next gate (R157). -/
theorem gate_mem {α : Type} {read : Except Fault α} {fails : α → Prop} [DecidablePred fails] {e st : Status}
    {next : α → Except Fault Status}
    (h : (do let v ← read; if fails v then return e else next v) = .ok st) (he : e ∈ gateStatuses)
    (hnext : ∀ v, next v = .ok st → st = .ok ∨ st ∈ gateStatuses) : st = .ok ∨ st ∈ gateStatuses := by
  obtain ⟨v, -, hv⟩ := exists_of_bind_ok h
  split at hv
  · cases hv
    exact .inr he
  · exact hnext v hv

/-- The gates report their own statuses or OK, also where `LEN` is beyond `RX` (R150, R157). -/
theorem gateStatus_mem {a : DevAddr} {len : Nat} {rx : List Byte} {st : Status} (h : gateStatus a len rx = .ok st) :
    st = .ok ∨ st ∈ gateStatuses := by
  unfold gateStatus at h
  split at h
  · cases h
    exact .inr (by decide)
  · refine gate_mem h (by decide) fun _ haddress => ?_
    refine gate_mem haddress (by decide) fun _ htype => ?_
    refine gate_mem htype (by decide) fun _ hlength => ?_
    refine gate_mem hlength (by decide) fun _ hreads => ?_
    obtain ⟨_, -, hchecksum⟩ := exists_of_bind_ok hreads
    refine gate_mem hchecksum (by decide) fun _ hpass => ?_
    cases hpass
    exact .inl rfl

theorem reports_checksum {len : Nat} {rx : List Byte} {r : Response} (h : checksumResponse len rx = .ok r) :
    Reports (.checksum len rx) r := by
  unfold checksumResponse at h
  split at h
  · cases h
    exact .raises List.mem_cons_self
  · split at h
    · cases h
      exact .succeeds rfl nofun
    · cases h

theorem reports_validate {a : DevAddr} {len : Nat} {rx : List Byte} {r : Response}
    (h : validateResponse a len rx = .ok r) : Reports (.validate len rx) r := by
  obtain ⟨st, hst, h⟩ := exists_of_bind_ok h
  split at h
  · cases h
    exact .succeeds rfl nofun
  · next hfail =>
    cases h
    exact .raises ((gateStatus_mem hst).resolve_left hfail)

theorem reports_parseIndex {a : DevAddr} {len : Nat} {rx : List Byte} {r : Response}
    (h : parseIndexResponse a len rx = .ok r) : Reports (.parseIndex len rx) r := by
  obtain ⟨st, hst, h⟩ := exists_of_bind_ok h
  split at h
  · next hfail =>
    cases h
    exact .raises ((gateStatus_mem hst).resolve_left hfail)
  · split at h
    · cases h
      exact .raises List.mem_cons_self
    · obtain ⟨slots, -, h⟩ := exists_of_bind_ok h
      cases h
      exact .succeeds rfl nofun

/-- A frame is sent with status OK and the warning its operation gives it (R111, R114). -/
theorem reports_emitFrame {i : Instr} {a : DevAddr} {op : Byte} {p : List Byte} {w : Bool} {r : Response}
    (hp : p.length ≤ 5) (hw : w = true → masksColour i) (h : emitFrame a op p w = .ok r) : Reports i r := by
  rw [emitFrame_ok a op p w (by omega)] at h
  cases h
  exact .succeeds rfl fun hwarn => hw (Option.some.inj hwarn)

theorem reports_emitFrame_warnNone {i : Instr} {a : DevAddr} {op : Byte} {p : List Byte} {r : Response}
    (hp : p.length ≤ 5) (h : emitFrame a op p warnNone = .ok r) : Reports i r :=
  reports_emitFrame hp (w := warnNone) (fun hw => absurd hw Bool.false_ne_true) h

theorem masksColour_of_warnColours {fc scol ecol cyc : Byte} (hw : warnColours scol ecol = true) :
    masksColour (.buildControlLed fc scol ecol cyc) := by
  rw [warnColours_eq, decide_eq_true_eq] at hw
  exact ⟨fc, scol, ecol, cyc, rfl, hw⟩

/-- A range check reports an operand out of range, or leaves the response to what follows it (R112, R113). -/
theorem reports_rangeCheck {i : Instr} {outside : Prop} [Decidable outside] {k : BitVec 3}
    {rest : Except Fault Response} {r : Response} (hi : i.operation ∈ rangeChecked)
    (h : (if outside then .ok (raiseOutOfRange k) else rest) = .ok r) (hrest : rest = .ok r → Reports i r) :
    Reports i r := by
  split at h
  · cases h
    exact .outOfRange hi
  · exact hrest h

/-- Every response is a report of its operation. -/
theorem reports_of_responseOf {v : Variant} {a : DevAddr} {i : Instr} {r : Response}
    (h : responseOf v a i = .ok r) : Reports i r := by
  cases i with
  | checksum len rx => exact reports_checksum h
  | validate len rx => exact reports_validate h
  | parseIndex len rx => exact reports_parseIndex h
  | setAddr n =>
    cases h
    exact .succeeds rfl nofun
  | buildEmpty => exact reports_emitFrame_warnNone (by simp) h
  | buildCancel => exact reports_emitFrame_warnNone (by simp) h
  | buildSleep => exact reports_emitFrame_warnNone (by simp) h
  | buildReadIndexTable page => exact reports_emitFrame_warnNone (by simp [payloadReadIndexTable]) h
  | buildAutoIdentify id score flags =>
    exact reports_emitFrame_warnNone (by simp [payloadAutoIdentify, placeHalf]) h
  | buildAutoEnroll id times flags =>
    refine reports_rangeCheck (.head _) h fun hframe => ?_
    exact reports_emitFrame_warnNone (by simp [payloadAutoEnroll, placeHalf]) hframe
  | buildControlLed fc scol ecol cyc =>
    refine reports_rangeCheck (.tail _ (.head _)) h fun hframe => ?_
    exact reports_emitFrame (by simp [payloadControlLed]) masksColour_of_warnColours hframe
  | buildDeleteChar id count =>
    have hi : Operation.buildDeleteChar ∈ rangeChecked := .tail _ (.tail _ (.head _))
    refine reports_rangeCheck hi h fun hcount => reports_rangeCheck hi hcount fun hframe => ?_
    exact reports_emitFrame_warnNone (payloadDeleteChar_length_le v id count) hframe

/-- What an instruction leaves in the state is a report of it, and the rest of the state is the one before with the
address it leaves. -/
theorem reports_of_exec {i : Instr} {s t : State} {r : Response} (hexec : exec i s = .next t)
    (hresp : t.response = some r) :
    Reports i r ∧ t = (s.withAddr (addressLeft s.devaddr i)).withResponse r := by
  obtain ⟨p, hp, rfl⟩ := exec_eq_next_iff.1 hexec
  cases hresp
  exact ⟨reports_of_responseOf hp, rfl⟩

/-! ## The statements on statuses and warnings -/

/-- Settles O40: only the success of an operation can carry a warning. -/
theorem warningsComeOnlyFromMaskedColours : Obligations.WarningsComeOnlyFromMaskedColours := by
  intro i s t r hexec hresp hwarn
  obtain ⟨hreport, -⟩ := reports_of_exec hexec hresp
  cases hreport with
  | succeeds hok hmasks => exact ⟨hok, hmasks hwarn⟩
  | raises _ => cases hwarn
  | outOfRange _ => cases hwarn

/-- An operation has the status OK, one that it raises, or, with a range check, ParameterOutOfRange. -/
theorem Reports.status_cases {i : Instr} {r : Response} (h : Reports i r) :
    r.status = .ok ∨ r.status ∈ raisedBy i.operation ∨
      (i.operation ∈ rangeChecked ∧ r.status = .parameterOutOfRange) := by
  cases h with
  | succeeds hok _ => exact .inl hok
  | raises hst => exact .inr (.inl hst)
  | outOfRange hi => exact .inr (.inr ⟨hi, rfl⟩)

/-- No gate reports the status of an operand or of CHECKSUM (R200). -/
theorem ne_operandStatus_of_gates {st : Status} (h : st = .ok ∨ st ∈ gateStatuses) :
    st ≠ .parameterOutOfRange ∧ st ≠ .checksumInputTooShort := by
  revert h
  cases st <;> decide

/-- Settles O38: the row of R200 for each operation, from `raisedBy` and `rangeChecked`. -/
theorem eachOperationReportsItsOwnStatuses : Obligations.EachOperationReportsItsOwnStatuses := by
  intro i s t r hexec hresp
  obtain ⟨hreport, -⟩ := reports_of_exec hexec hresp
  have hstatus := hreport.status_cases
  cases hop : i.operation with
  | validate | parseIndex =>
    have hgates : r.status = .ok ∨ r.status ∈ gateStatuses := by
      simpa [hop, raisedBy, rangeChecked] using hstatus
    exact ne_operandStatus_of_gates hgates
  | _ => simpa [hop, raisedBy, rangeChecked] using hstatus

/-- No status that an operation raises for its receive buffer is that of an operand (R200). -/
theorem ne_parameterOutOfRange_of_raisedBy {o : Operation} {st : Status} (h : st ∈ raisedBy o) :
    st ≠ .parameterOutOfRange := by
  rintro rfl
  revert h
  cases o <;> decide

/-- SET_ADDR alone writes the address (R20). -/
theorem addressLeft_of_ne_setAddr {i : Instr} (hi : i.operation ≠ .setAddr) (a : DevAddr) : addressLeft a i = a := by
  cases i with
  | setAddr n => exact absurd rfl hi
  | _ => rfl

/-- SET_ADDR reports success alone (R190). -/
theorem Reports.ne_setAddr {i : Instr} {r : Response} (h : Reports i r) (hfail : r.status ≠ .ok) :
    i.operation ≠ .setAddr := by
  intro hset
  have hstatus := h.status_cases
  simp [hset, raisedBy, rangeChecked, hfail] at hstatus

/-- Settles O37: a response with another status than OK is `raiseStatus` or `raiseOutOfRange`, whose fields are read
off, and its operation leaves the address. -/
theorem failingOperationsWriteNothing : Obligations.FailingOperationsWriteNothing := by
  intro i s t r hexec hresp hfail
  obtain ⟨hreport, rfl⟩ := reports_of_exec hexec hresp
  have hi : i.operation ≠ .setAddr := hreport.ne_setAddr hfail
  have hsame : (s.withAddr (addressLeft s.devaddr i)).withResponse r = { s with response := some r } := by
    rw [addressLeft_of_ne_setAddr hi]
    rfl
  cases hreport with
  | succeeds hok _ => exact absurd hok hfail
  | raises hst =>
    have hrange := ne_parameterOutOfRange_of_raisedBy hst
    exact ⟨hsame, rfl, rfl, rfl, rfl, rfl, rfl, by simp [raiseStatus, hrange], hi⟩
  | outOfRange _ => exact ⟨hsame, rfl, rfl, rfl, rfl, rfl, rfl, by simp [raiseOutOfRange], hi⟩

end Sys2Proof.Machine

/-! SUPPORT. Reset: the state a reset input leaves, whether it comes between requests or cuts one (R230, R231), and the
state after reset, which is good (R232). -/

namespace Sys2Proof.Machine

/-- All four bytes 0xFF are the largest 32-bit address (R230). -/
theorem addrValue_resetAddr : addrValue resetAddr = 0xFFFFFFFF := by
  rw [addrValue_eq]
  rfl

/-- What a reset leaves of the input that brought it: the reset address, the inputs after it, and all else as it
was (R230, R231). -/
theorem resetBlock_withPending (s : State) (rest : List Event) :
    resetBlock (s.withPending rest) = { s with devaddr := ⟨0xFF, 0xFF, 0xFF, 0xFF⟩, pending := rest } := rfl

/-- Settles O1: a reset input is served by `resetBlock` (`step_reset`), and `addrValue_resetAddr` reads the 32-bit
view. -/
theorem resetLoadsTheBroadcastAddress : Obligations.ResetLoadsTheBroadcastAddress := by
  refine ⟨⟨State.reset_devaddr, addrValue_resetAddr⟩, fun s rest hp => ?_⟩
  rw [step_reset hp, resetBlock_withPending]

/-- Settles O2: the request that the reset cuts does not enter the next state (`step_resetDuring`). -/
theorem resetAbandonsTheRequestInProgress : Obligations.ResetAbandonsTheRequestInProgress := by
  intro s h r rest hp
  rw [step_resetDuring hp, resetBlock_withPending]

/-- Before anything is sent, a state that holds no response is good. -/
theorem State.good_of_delivered_nil {s : State} (hr : s.response = none) (hd : s.delivered = []) : s.good := by
  refine ⟨hr, fun d hmem => ?_⟩
  rw [hd] at hmem
  exact absurd hmem List.not_mem_nil

/-- Settles O44: after reset no response is held and none has been sent. -/
theorem resetStateIsGood : Obligations.ResetStateIsGood :=
  State.good_of_delivered_nil State.reset_response State.reset_delivered

end Sys2Proof.Machine
